-- ==== Sys2Proof/Word.lean ====
section
/-! DEFINITION. The word types of the framer: bytes on the wire, 4-bit counts, 32-bit host words. -/

namespace Sys2Proof

/-- `u8` (R11): a byte of a frame on the wire. -/
abbrev Byte := BitVec 8

/-- `u4` (R11, R8 `FIELD_W`): a position, a total, an expected count or the engine's counter. -/
abbrev Nibble := BitVec 4

/-- A host register word or a command word (R23, R68): 32 bits, bit 0 least significant. -/
abbrev Word := BitVec 32

end Sys2Proof
end

