-- ==== Sys2Proof/Config.lean ====
section
/-! DEFINITION. The implementation parameters of R8, and the model's free values (constants without bodies). -/

namespace Sys2Proof

/-- How the bring-up hook sets the shift engine: clock polarity and phase (`SPI_MODE`) and clock rate (`SCLK_RATE`)
(R8, R140). The bit order is fixed, most significant bit first (R48). -/
structure BusSetup where
  clockPolarity : Bool
  clockPhase : Bool
  sclkRate : Nat
  deriving DecidableEq, Repr

/-- The implementation parameters of R8. A state carries its own copy, so a statement about every state is a statement
about every value of them; no step changes them. -/
structure Params where
  nopCmd : Byte
  nopData : Byte
  sentinelCmd : Byte
  sentinelData : Byte
  /-- `CAL_MAX`: the most no-op cycles a DETECT makes. -/
  calMax : Nat
  /-- `BASE`: the host address of the register window. Host accesses are given by their offset from it (R14). -/
  base : Nat
  /-- `CS_HIGH_MIN`: the untimed model gives it no duration (R150). -/
  csHighMin : Nat
  /-- `SPI_MODE` and `SCLK_RATE`: applied by the bring-up hook (R140). -/
  busSetup : BusSetup
  deriving DecidableEq, Repr

/-- OPEN parameter (R8, D10): no value in the source. -/
opaque Config.nopCmd : Byte
/-- OPEN parameter (R8, D10): no value in the source. -/
opaque Config.nopData : Byte
/-- OPEN parameter (R8, D3). -/
opaque Config.base : Nat
/-- OPEN parameter (R8, D22). -/
opaque Config.csHighMin : Nat
/-- OPEN parameter `SPI_MODE` (R8, D1), polarity. -/
opaque Config.clockPolarity : Bool
/-- OPEN parameter `SPI_MODE` (R8, D1), phase. -/
opaque Config.clockPhase : Bool
/-- OPEN parameter `SCLK_RATE` (R8, D1). -/
opaque Config.sclkRate : Nat

/-- FREE VALUE (R59, R60; log 7): the byte a free environment returns at its `n`-th draw. -/
opaque Config.freeRx : Nat → Byte
/-- FREE VALUE (R10, R42; log 11): the chain at power-up. `some k` is a reference chain of `k + 1` boards; `none` an
environment that the reference model does not describe (R60). -/
opaque Config.boardsAtPowerUp : Option Nat
/-- FREE VALUE (R42, R58, R139; logs 9, 11): byte `k` of the queue of a chain whose contents are unspecified, at a draw. -/
opaque Config.freeStageByte : Nat → Nat → Byte
/-- FREE VALUE (R42, R58, R139; logs 9, 11): the byte of the output register at an address, of a chain whose contents are
unspecified, at a draw. -/
opaque Config.freeOutByte : Nat → Nat → Byte
/-- FREE VALUE (R34, D17; log 13): what a read of `ECHO` or `CAL` while busy returns at the `n`-th draw. -/
opaque Config.freeHostWord : Nat → Word
/-- FREE VALUE (R151, R155; log 8): how many exchanges complete before the bus stalls, at a draw: at power-up, and after a
reset that ends a stall; none if it never stalls. -/
opaque Config.exchangesThatComplete : Nat → Option Nat

/-- The parameters of the machine that `State.reset` starts: the defaults of R8 where it gives one, the constants above
where it says OPEN. -/
def Config.params : Params where
  nopCmd := Config.nopCmd
  nopData := Config.nopData
  sentinelCmd := 0x55#8
  sentinelData := 0xF0#8
  calMax := 9
  base := Config.base
  csHighMin := Config.csHighMin
  busSetup := { clockPolarity := Config.clockPolarity, clockPhase := Config.clockPhase, sclkRate := Config.sclkRate }

end Sys2Proof
end

