-- ==== Sys2Proof/Syntax.lean ====
section
/-! DEFINITION. The two instructions of the opcode table, and the assembler lines that write them (R81). -/

namespace Sys2Proof

/-- The command words of R70 as instructions, one constructor per row of `opcode_table.json`. The operands are the
unsigned fields of R73, so an operand outside its range cannot be written here; it can in `AsmLine`. -/
inductive Instr where
  /-- `TRANSACT p, N, c, d` (R84): position, total, command byte and data byte of the addressed frame. -/
  | transact (p n : Nibble) (c d : Byte)
  /-- `DETECT E` (R106): expected count. -/
  | detect (e : Nibble)
  deriving DecidableEq, Repr

/-- A line of the assembler syntax of R81, its operands as the numbers the source text writes. -/
inductive AsmLine where
  | transact (p n c d : Nat)
  | detect (e : Nat)
  /-- `.word v`: the raw word `v`. -/
  | word (v : Nat)
  deriving DecidableEq, Repr

end Sys2Proof
end

