-- ==== Sys2Proof/WellFormed.lean ====
section
/-! DEFINITION. The checks: operand ranges of an assembler line (R81) and legality of the parameters (R9). -/

namespace Sys2Proof

/-- R81: `p`, `N`, `E` in 0..15, `c`, `d` in 0..255, `.word` a 32-bit word; outside its range an operand is an assembly
error, not an encoding. -/
def AsmLine.wellFormed : AsmLine → Bool
  | .transact p n c d => decide (p < 16) && decide (n < 16) && decide (c < 256) && decide (d < 256)
  | .detect e => decide (e < 16)
  | .word v => decide (v < 2 ^ 32)

/-- R9: the sentinel pair is not the no-op pair, and `1 <= CAL_MAX <= 15`. -/
def Params.legal (P : Params) : Bool :=
  decide ((P.sentinelCmd, P.sentinelData) ≠ (P.nopCmd, P.nopData)) && decide (1 ≤ P.calMax) && decide (P.calMax ≤ 15)

end Sys2Proof
end

