-- ==== Sys2Proof/Decode.lean ====
section
/-! DEFINITION. Decoding of a command word, total over all words (R69-R79), the encoder (R71, R72) and the assembler (R81). -/

namespace Sys2Proof

/-- Why a word is no instruction (R74, R75). -/
inductive DecodeError where
  /-- R74: `OP` is 0x0 or 0x3..0xF. -/
  | unassignedOpcode
  /-- R75: an assigned `OP` with a must-be-zero field that is not zero. -/
  | reservedFieldNonzero
  deriving DecidableEq, Repr

/-- `OP`, bits 31:28 (R69). -/
def Word.op (w : Word) : Nibble := w.extractLsb' 28 4
/-- `POS`, bits 27:24 (R69). -/
def Word.pos (w : Word) : Nibble := w.extractLsb' 24 4
/-- `TOT`, bits 23:20 (R69). -/
def Word.tot (w : Word) : Nibble := w.extractLsb' 20 4
/-- `RSVD`, bits 19:16 (R69). -/
def Word.rsvd (w : Word) : Nibble := w.extractLsb' 16 4
/-- `CMDB`, bits 15:8 (R69). -/
def Word.cmdb (w : Word) : Byte := w.extractLsb' 8 8
/-- `DATB`, bits 7:0 (R69). -/
def Word.datb (w : Word) : Byte := w.extractLsb' 0 8

/-- Match and mask of TRANSACT (R71). -/
def Word.isTransact (w : Word) : Bool := (w &&& 0xF00F0000#32) == 0x10000000#32
/-- Match and mask of DETECT (R72). -/
def Word.isDetect (w : Word) : Bool := (w &&& 0xFF0FFFFF#32) == 0x20000000#32
/-- A word is legal iff it matches one of the two patterns (R75). -/
def Word.legal (w : Word) : Bool := Word.isTransact w || Word.isDetect w

/-- The decoder (R78's two matches in their order; R79: total). The checks on the arguments (R85) belong to the
instruction's meaning. -/
def decode (w : Word) : Except DecodeError Instr :=
  if Word.isTransact w then .ok (.transact (Word.pos w) (Word.tot w) (Word.cmdb w) (Word.datb w))
  else if Word.isDetect w then .ok (.detect (Word.tot w))
  else if Word.op w = 0x1#4 ∨ Word.op w = 0x2#4 then .error .reservedFieldNonzero
  else .error .unassignedOpcode

/-- The encoder: the bit patterns of R71 and R72, bit 31 first. -/
def encode : Instr → Word
  | .transact p n c d => 0x1#4 ++ p ++ n ++ 0x0#4 ++ c ++ d
  | .detect e => 0x2#4 ++ 0x0#4 ++ e ++ 0x0#4 ++ 0x00#8 ++ 0x00#8

/-- The assembler (R81): none is an assembly error. -/
def assemble (l : AsmLine) : Option Word :=
  if l.wellFormed then
    match l with
    | .transact p n c d => some (BitVec.ofNat 32 (0x10000000 ||| p <<< 24 ||| n <<< 20 ||| c <<< 8 ||| d))
    | .detect e => some (BitVec.ofNat 32 (0x20000000 ||| e <<< 20))
    | .word v => some (BitVec.ofNat 32 v)
  else none

/-- The command word that the opcode table's numbering gives: `nbits` bits `w`, every bit above them 0. None if the
table gave more bits than a command word has (R68: there is no other length). -/
def tableWord (nbits w : Nat) : Option Word :=
  if nbits ≤ 32 then some (BitVec.ofNat 32 (w % 2 ^ nbits)) else none

/-- What the decoder reads from an instruction whose bits, numbered as the opcode table numbers them, are `w`. A command
word has no byte-lane order (R47): its bit `k` is the table's bit `k`. -/
def decodeTableWord (nbits w : Nat) : Option Instr :=
  match tableWord nbits w with
  | none => none
  | some v =>
    match decode v with
    | .ok i => some i
    | .error _ => none

end Sys2Proof
end

