-- ==== Sys2Proof/Machine/State.lean ====
section
/-! DEFINITION. The state: the framer's registers, its chip-select output, its engine, the shift engine and the chain
environment beside it, and the host port's pending events. Plain data. -/

namespace Sys2Proof.Machine

/-- The codes of `STATUS.KIND` (R30). The reserved values 6 and 7 do not exist. -/
inductive Kind where
  | ok | echoMismatch | lengthMismatch | notFound | badArgs | illegalCmd
  deriving DecidableEq, Repr

/-- The fields of `STATUS` (R25). -/
structure Status where
  busy : Bool
  done : Bool
  pass : Bool
  overrun : Bool
  kind : Kind
  calOk : Bool
  deriving DecidableEq, Repr

/-- The fields of `ECHO` (R32): `echoCmd` and `echoData`. -/
structure Echo where
  cmd : Byte
  data : Byte
  deriving DecidableEq, Repr

/-- The fields of `CAL` (R35). -/
structure Cal where
  detected : Nibble
  expected : Nibble
  deriving DecidableEq, Repr

/-- The level of `cs_n` (R36): low is asserted, high is idle. -/
inductive Level where
  | low | high
  deriving DecidableEq, Repr

/-- The accepted operation, `op_q` (R37). -/
inductive Op where
  | transact | detect
  deriving DecidableEq, Repr

/-- The engine steps (R38). `dEnd` says whether the scan ended "with `found`" (R114). -/
inductive Fsm where
  | idle
  | tStart | tAddr | tLead | tToggle | tTrail | tEnd
  | dStart | dSent | dScan | dEnd (found : Bool)
  deriving DecidableEq, Repr

/-- Which byte of the current pair is exchanged next: R94 performs a pair as two byte events. -/
inductive Half where
  | cmd | data
  deriving DecidableEq, Repr

/-- The internal engine state (R37), with the half of the current pair (R94; log 6). -/
structure Engine where
  fsm : Fsm
  half : Half
  opQ : Op
  posQ : Nibble
  totQ : Nibble
  cmdQ : Byte
  datQ : Byte
  cnt : Nibble
  rxHold : Byte
  deriving DecidableEq, Repr

/-- A bus event (R12, R17). -/
inductive BusEvent where
  | csLow
  | csHigh
  | xfer (tx rx : Byte)
  deriving DecidableEq, Repr

/-- The boards' output registers as cells in one canonical form: addresses strictly rising. The address of `out[b][r]`
is `256 * b + r`. Every register that exists is listed; an unlisted address is no register (R52; log 16). -/
abbrev Memory := List Host.Cell

/-- The reference chain (R52): the number of boards `M`, the byte queue `Q` with `Q[0]` nearest the framer, and the
boards' output registers. -/
structure Chain where
  depth : Nat
  queue : List Byte
  out : Memory
  deriving DecidableEq, Repr

/-- The chain environment (R7, R59, R60). -/
inductive Env where
  /-- The reference chain model (R52-R58). -/
  | reference (chain : Chain)
  /-- A free environment: it returns these bytes, and free draws when the list is used up. -/
  | oracle (answers : List Byte)
  deriving DecidableEq, Repr

/-- The external shift engine behind the byte-exchange port (R6(4), R140, R151). -/
structure ShiftEngine where
  /-- How the bring-up hook configured it; none before bring-up (R140). -/
  setup : Option BusSetup
  /-- How many more exchanges complete before the bus stalls for ever; none if every exchange completes (R151, R155). -/
  completes : Option Nat
  deriving DecidableEq, Repr

/-- What happens at the host port and around the framer, in order (R61; log 1). -/
inductive PortEvent where
  /-- `MemWrite(BASE + off, width, v)` (R14); `width` in bytes. -/
  | write (off width : Nat) (v : Word)
  /-- `MemRead(BASE + off, width)` (R14). -/
  | read (off width : Nat)
  /-- The host macro `WAIT` (R82): the host polls `STATUS` until `BUSY` is clear. -/
  | wait
  /-- The engine makes one move before the next event. -/
  | engine
  /-- Reset (R138, R139). -/
  | reset
  /-- The bring-up hook (R140). -/
  | bringUp
  deriving DecidableEq, Repr

/-- The framer raises no exception, trap or fault (R125): there is no fault. -/
inductive Fault where
  deriving DecidableEq, Repr

/-- Why the model gives a step no meaning. Every one is safe: the machine stops where the spec says nothing of it. -/
inductive Refusal where
  /-- Raised by `exec` for an instruction without a meaning: none is left. Safe. -/
  | notModelled (mnemonic : String)
  /-- Raised by a host access that is not 32 bits wide, not aligned, or outside the window (R44, I4). Safe. -/
  | accessOutsideInterface
  /-- Raised by a command written before the bring-up hook ran (R140, I17). Safe. -/
  | commandBeforeBringUp
  /-- Raised by the bring-up hook when the parameters violate R9 (I5). Safe. -/
  | illegalParameters
  /-- Raised by the bring-up hook while an operation runs: the shift engine then serves the framer only (R135, R140, I18). Safe. -/
  | bringUpDuringOperation
  deriving DecidableEq, Repr

/-- The whole state. -/
@[ext]
structure State where
  /-- The implementation parameters (R8). No step changes them. -/
  params : Params
  /-- `STATUS` (R25). -/
  status : Status
  /-- `ECHO` (R32). -/
  echo : Echo
  /-- `CAL` (R35). -/
  cal : Cal
  /-- The chip-select output (R36). -/
  csN : Level
  /-- The internal engine state (R37). -/
  engine : Engine
  /-- The external shift engine (R140, R151). -/
  shift : ShiftEngine
  /-- The chain environment (R59). -/
  env : Env
  /-- Every bus event so far, oldest first (R17). -/
  trace : List BusEvent
  /-- The port events still to come, oldest first (R61). -/
  port : List PortEvent
  /-- The offset and value of every completed host read, oldest first. -/
  reads : List (Nat × Word)
  /-- How many free draws the environment and the shift engine have made (log 7). -/
  rxDraws : Nat
  /-- How many free words host reads have drawn (log 13). -/
  readDraws : Nat
  deriving DecidableEq, Repr

/-- `STATUS` after reset (R41). -/
def Status.reset : Status :=
  { busy := false, done := false, pass := false, overrun := false, kind := .ok, calOk := false }

/-- `ECHO` after reset (R41). -/
def Echo.reset : Echo := { cmd := 0x00#8, data := 0x00#8 }

/-- `CAL` after reset (R41). -/
def Cal.reset : Cal := { detected := 0#4, expected := 0#4 }

/-- The engine after reset: `IDLE` (R41); DESIGN CHOICE (log 5): the registers R41 leaves unspecified are zero. -/
def Engine.reset : Engine :=
  { fsm := .idle, half := .cmd, opQ := .transact, posQ := 0#4, totQ := 0#4, cmdQ := 0x00#8, datQ := 0x00#8, cnt := 0#4,
    rxHold := 0x00#8 }

/-- The addresses of the output registers of the boards `1..M`, every register address of each (R52). -/
def registerAddrs (depth : Nat) : List Nat := List.range' 256 (256 * depth)

/-- A reference chain of which only the depth is known (R42, R58, R139): every byte of the queue and of the output registers
is free, at the draw given. -/
def Chain.unspecified (draw depth : Nat) : Chain where
  depth := depth
  queue := (List.range (2 * depth)).map (Config.freeStageByte draw)
  out := (registerAddrs depth).map (fun a => (a, Config.freeOutByte draw a))

/-- The environment at power-up (R10, R42, R58; log 11), the first draw: a reference chain with free contents, or an
environment that the reference model does not describe. -/
def Env.powerUp : Env :=
  match Config.boardsAtPowerUp with
  | some k => .reference (Chain.unspecified 0 (k + 1))
  | none => .oracle []

/-- The machine right after power-up and reset (R41, R138): nothing configured, nothing exchanged, the environment at
power-up (R42). Draw 0 is used by the environment and by the shift engine, so the next draw is 1. -/
def State.reset : State where
  params := Config.params
  status := Status.reset
  echo := Echo.reset
  cal := Cal.reset
  csN := .high
  engine := Engine.reset
  shift := { setup := none, completes := Config.exchangesThatComplete 0 }
  env := Env.powerUp
  trace := []
  port := []
  reads := []
  rxDraws := 1
  readDraws := 0

end Sys2Proof.Machine
end

