-- ==== Sys2Proof/Machine/Flags.lean ====
section
/-! DEFINITION. The flags and result fields of `STATUS`, and the words the host reads from the registers. -/

namespace Sys2Proof.Machine

/-- The outcome of a step of this machine. -/
abbrev Outcome := Host.Outcome State Fault Refusal

/-- The code of a result kind (R30). -/
def Kind.code : Kind → BitVec 3
  | .ok => 0#3
  | .echoMismatch => 1#3
  | .lengthMismatch => 2#3
  | .notFound => 3#3
  | .badArgs => 4#3
  | .illegalCmd => 5#3

/-- The word a read of `STATUS` returns (R25): `CAL_OK` in bit 7, `KIND` in bits 6:4, then `OVERRUN`, `PASS`, `DONE`,
`BUSY`; bits 31:8 read as zero. -/
def Status.word (f : Status) : Word :=
  0x000000#24 ++ BitVec.ofBool f.calOk ++ f.kind.code ++ BitVec.ofBool f.overrun ++ BitVec.ofBool f.pass ++
    BitVec.ofBool f.done ++ BitVec.ofBool f.busy

/-- The word of `ECHO` (R32). -/
def Echo.word (e : Echo) : Word := 0x0000#16 ++ e.cmd ++ e.data

/-- The word of `CAL` (R35). -/
def Cal.word (c : Cal) : Word := 0x000000#24 ++ c.expected ++ c.detected

/-- Acceptance of a command word (R77). `CAL_OK` stays. -/
def Status.accept (f : Status) : Status := { f with overrun := false, done := false, pass := false, kind := .ok }

/-- `finish(kind)` (R15). -/
def Status.finish (k : Kind) (f : Status) : Status := { f with kind := k, pass := decide (k = .ok), done := true, busy := false }

/-- Acceptance (R77) on the state: `ECHO` and `CAL` stay. -/
def accept (s : State) : State := { s with status := s.status.accept }

/-- `finish(kind)` (R15) on the state. -/
def finish (k : Kind) (s : State) : State := { s with status := s.status.finish k }

/-- `STATUS.BUSY <- 1` (R78). -/
def setBusy (s : State) : State := { s with status := { s.status with busy := true } }

/-- A command written while busy (R76): only `OVERRUN` changes. -/
def dropCommand (s : State) : State := { s with status := { s.status with overrun := true } }

/-- `CAL_OK <- b` (R31). -/
def setCalOk (b : Bool) (s : State) : State := { s with status := { s.status with calOk := b } }

/-- A rejected word (R74, R75): `finish(ILLEGAL_CMD)`, no bus event. -/
def rejectIllegal (s : State) : State := finish .illegalCmd s

end Sys2Proof.Machine
end

