-- ==== Sys2Proof/Machine/Operands.lean ====
section
/-! DEFINITION. The operands of a command as the engine uses them: the frames it sends and the counts it makes. -/

namespace Sys2Proof.Machine

/-- A frame on the wire: command byte, then data byte (R49, R80). -/
abbrev Frame := Byte × Byte

/-- The no-op pair (R13, R80). -/
def nopFrame (P : Params) : Frame := (P.nopCmd, P.nopData)

/-- The sentinel pair (R107). -/
def sentinelFrame (P : Params) : Frame := (P.sentinelCmd, P.sentinelData)

/-- TRANSACT's precondition `1 <= p <= N` fails: `N == 0` or `p == 0` or `p > N` (R85). -/
def badArgs (p n : Nibble) : Bool := decide (n = 0#4) || decide (p = 0#4) || decide (n < p)

/-- `p - 1` leading pads (R88). -/
def leadingPads (p : Nibble) : Nibble := p - 1#4

/-- `N - p + 1` trailing cycles (R90). -/
def trailingCycles (p n : Nibble) : Nibble := n - p + 1#4

/-- The operands of an accepted TRANSACT (R78): `op_q`, `pos_q`, `tot_q`, `cmd_q`, `dat_q`, and `fsm <- T_START`. -/
def latchTransact (p n : Nibble) (c d : Byte) (s : State) : State :=
  { s with engine := { s.engine with fsm := .tStart, half := .cmd, opQ := .transact, posQ := p, totQ := n, cmdQ := c, datQ := d } }

/-- The operand of an accepted DETECT (R78): `op_q`, `tot_q`, and `fsm <- D_START`. -/
def latchDetect (e : Nibble) (s : State) : State :=
  { s with engine := { s.engine with fsm := .dStart, half := .cmd, opQ := .detect, totQ := e } }

end Sys2Proof.Machine
end

