-- ==== Sys2Proof/Machine/Ops.lean ====
section
/-! DEFINITION. The named operations: the boards' output registers, the reference chain, the bus primitives of R12 and R13,
the register writes of the engine, host reads, bring-up and reset. -/

namespace Sys2Proof.Machine

/-! ### The boards' output registers -/

/-- The canonical form: addresses strictly rising. -/
abbrev Memory.wf (m : Memory) : Prop := m.Pairwise (fun x y => x.1 < y.1)

/-- The byte at an address; none where there is no register (log 16). -/
def Memory.read : Memory → Nat → Option Byte
  | [], _ => none
  | (k, v) :: m, a => if a = k then some v else Memory.read m a

/-- Write one byte, keeping the addresses strictly rising. -/
def Memory.write : Memory → Nat → Byte → Memory
  | [], a, v => [(a, v)]
  | (k, w) :: m, a, v =>
    if a < k then (a, v) :: (k, w) :: m
    else if a = k then (a, v) :: m
    else (k, w) :: Memory.write m a v

/-- The address of `out[b][r]` (R52). -/
def outAddr (b : Nat) (r : Byte) : Nat := 256 * b + r.toNat

/-! ### The reference chain (R52-R58) -/

/-- The stages of a byte queue, bottom board first: `(Q[2b-1], Q[2b-2])` for `b = 1, 2, ...` (R53). -/
def stagesOf : List Byte → List Frame
  | d :: c :: rest => (c, d) :: stagesOf rest
  | _ => []

/-- The stages of a chain, bottom board first. -/
def Chain.stages (ch : Chain) : List Frame := stagesOf ch.queue

/-- `stage(b)` (R53); none if there is no board `b`. -/
def Chain.stage (ch : Chain) (b : Nat) : Option Frame := if b = 0 then none else ch.stages[b - 1]?

/-- R52: at least one board, two bytes a board, and for each board an output register for every register address. -/
abbrev Chain.wf (ch : Chain) : Prop :=
  1 ≤ ch.depth ∧ ch.queue.length = 2 * ch.depth ∧ ch.out.map Prod.fst = registerAddrs ch.depth

/-- Every stage holds the no-op pair (R146). -/
def Chain.flushed (P : Params) (ch : Chain) : Bool := ch.stages.all (fun f => decide (f = nopFrame P))

/-- `Xfer_env` (R54): the byte that leaves at the top, and the queue with the sent byte in at the bottom. -/
def Chain.exchange (tx : Byte) (ch : Chain) : Byte × Chain :=
  ((tx :: ch.queue).getLast (List.cons_ne_nil tx ch.queue), { ch with queue := (tx :: ch.queue).dropLast })

/-- The latches of boards `b`, `b+1`, ... that hold these stages: `out[b][c] <- d` (R55). -/
def latchFrom : Nat → List Frame → Memory → Memory
  | _, [], m => m
  | b, (c, d) :: fs, m => latchFrom (b + 1) fs (m.write (outAddr b c) d)

/-- The CS rising edge (R55): every board latches its stage; the queue is unchanged. -/
def Chain.latch (ch : Chain) : Chain := { ch with out := latchFrom 1 ch.stages ch.out }

/-! ### The environment (R59, R60) -/

/-- What the environment answers to a byte, what it becomes, and how many free bytes it drew. -/
def Env.answer (draw : Nat) (tx : Byte) : Env → Byte × Env × Nat
  | .reference ch => ((ch.exchange tx).1, .reference (ch.exchange tx).2, 0)
  | .oracle (rx :: rest) => (rx, .oracle rest, 0)
  | .oracle [] => (Config.freeRx draw, .oracle [], 1)

/-- The environment at a CS rising edge (R55). -/
def Env.rise : Env → Env
  | .reference ch => .reference ch.latch
  | .oracle rest => .oracle rest

/-- The environment after a reset that came during an operation (R139; log 9): of a reference chain only the depth is known,
and a free environment has no answers laid down any more; and how many free draws this took. -/
def Env.disturbed (draw : Nat) : Env → Env × Nat
  | .reference ch => (.reference (Chain.unspecified draw ch.depth), 1)
  | .oracle _ => (.oracle [], 0)

/-- The boards' output registers; a free environment has none that the spec describes (R60). -/
def Env.out : Env → Memory
  | .reference ch => ch.out
  | .oracle _ => []

/-- The environment's data is well formed. -/
abbrev Env.wf (e : Env) : Prop :=
  match e with
  | .reference ch => ch.wf
  | .oracle _ => True

/-! ### The bus primitives (R12, R13) -/

/-- `CS <- 0` (R12). The falling edge changes nothing in the chain (R56). -/
def csLow (s : State) : State := { s with csN := .low, trace := s.trace ++ [.csLow] }

/-- `CS <- 1` (R12); a rising edge latches the boards (R55). -/
def csHigh (s : State) : State :=
  { s with csN := .high, trace := s.trace ++ [.csHigh], env := if s.csN = .low then s.env.rise else s.env }

/-- `rx <- Xfer(tx)` (R12): the byte received and the state after it. None when the exchange never completes (R151). -/
def xfer (tx : Byte) (s : State) : Option (Byte × State) :=
  if s.shift.completes = some 0 then none
  else
    let a := s.env.answer s.rxDraws tx
    some (a.1,
      { s with
        shift := { s.shift with completes := s.shift.completes.map (fun k => k - 1) }
        env := a.2.1
        rxDraws := s.rxDraws + a.2.2
        trace := s.trace ++ [.xfer tx a.1] })

/-- `(ec, ed) <- XferPair(c, d)` (R13): command byte first, then data byte (R49). -/
def xferPair (f : Frame) (s : State) : Option (Frame × State) :=
  match xfer f.1 s with
  | none => none
  | some (ec, t) =>
    match xfer f.2 t with
    | none => none
    | some (ed, u) => some ((ec, ed), u)

/-- A byte on the wire, most significant bit first (R48). -/
def msbFirst (b : Byte) : List Bool := (List.range 8).map (fun k => b.getMsbD k)

/-- The bits of one bus event on the two data lines, sent and received, in time order (R12, R48). A CS edge sends none. -/
def BusEvent.wireBits : BusEvent → List (Bool × Bool)
  | .csLow => []
  | .csHigh => []
  | .xfer tx rx => (msbFirst tx).zip (msbFirst rx)

/-! ### Register writes of the engine -/

/-- `ECHO <- {ec, ed}` (R50, R87, R90, R109). -/
def capture (f : Frame) (s : State) : State := { s with echo := { cmd := f.1, data := f.2 } }

/-- `fsm <- q`. -/
def goto (q : Fsm) (s : State) : State := { s with engine := { s.engine with fsm := q } }

/-- `cnt <- k`. -/
def setCnt (k : Nibble) (s : State) : State := { s with engine := { s.engine with cnt := k } }

/-- `rx_hold <- rx`, and the data byte of the pair is next (R94). -/
def holdFirst (rx : Byte) (s : State) : State := { s with engine := { s.engine with half := .data, rxHold := rx } }

/-- The pair is complete: the command byte of the next pair is next (R94). -/
def pairDone (s : State) : State := { s with engine := { s.engine with half := .cmd } }

/-- `CAL.EXPECTED <- e; CAL.DETECTED <- k` (R111, R112). -/
def setCal (k e : Nibble) (s : State) : State := { s with cal := { detected := k, expected := e } }

/-- Step 7 of TRANSACT (R92): compare the echo with the frame sent. -/
def verifyEcho (f : Frame) (s : State) : State :=
  finish (if (s.echo.cmd, s.echo.data) = f then .ok else .echoMismatch) s

/-- Steps 5 and 6 of DETECT (R111, R112): `found` at count `k`, with expected count `e`. -/
def reportCount (found : Bool) (k e : Nibble) (s : State) : State :=
  if found then
    if k = e then finish .ok (setCalOk true (setCal k e s)) else finish .lengthMismatch (setCalOk false (setCal k e s))
  else finish .notFound (setCalOk false (setCal 0#4 e s))

/-! ### Host reads, bring-up and reset -/

/-- An access of the interface (R44; I4 for the window): 32 bits wide, aligned, inside the 16 bytes. -/
def accessAllowed (off width : Nat) : Bool := decide (width = 4) && decide (off % 4 = 0) && decide (off < 16)

/-- The offset in the window of a host address; none below `BASE` (R14, R43). -/
def windowOffset (P : Params) (addr : Nat) : Option Nat := if P.base ≤ addr then some (addr - P.base) else none

/-- Is the value a host read of this offset returns unspecified? `ECHO` and `CAL` are, while busy (R34). -/
def readUnspecified (off : Nat) (s : State) : Bool := s.status.busy && (decide (off = 8) || decide (off = 12))

/-- The value a host read returns (R23, R24, R34). -/
def readValue (off : Nat) (s : State) : Word :=
  if readUnspecified off s then Config.freeHostWord s.readDraws
  else if off = 4 then s.status.word
  else if off = 8 then s.echo.word
  else if off = 12 then s.cal.word
  else 0x00000000#32

/-- A host read: no register of the framer changes (R45); the value is noted in `reads`. -/
def hostRead (off : Nat) (s : State) : State :=
  { s with
    reads := s.reads ++ [(off, readValue off s)]
    readDraws := if readUnspecified off s then s.readDraws + 1 else s.readDraws }

/-- The bring-up hook (R140) with the platform's bus setup. -/
def configureBus (s : State) : State := { s with shift := { s.shift with setup := some s.params.busSetup } }

/-- How many exchanges complete after a reset, and how many free draws this took. The spec is silent on it (R151 says only
that reset ends the hang). DESIGN CHOICE (log 8): after a stall it is a free draw, else it stays. -/
def ShiftEngine.resumed (draw : Nat) (e : ShiftEngine) : Option Nat × Nat :=
  if e.completes = some 0 then (Config.exchangesThatComplete draw, 1) else (e.completes, 0)

/-- Reset (R138, R139). During an operation, or with `cs_n` low, the chain is left unspecified. Whether exchanges complete
after a stall is open again (log 8). The logs of bus events and reads, the shift engine's setup and the events still to come
stay (log 10). -/
def resetFramer (s : State) : State :=
  let e := if s.status.busy ∨ s.csN = .low then s.env.disturbed s.rxDraws else (s.env, 0)
  let c := s.shift.resumed s.rxDraws
  { s with
    status := Status.reset
    echo := Echo.reset
    cal := Cal.reset
    csN := .high
    engine := Engine.reset
    shift := { s.shift with completes := c.1 }
    env := e.1
    rxDraws := s.rxDraws + e.2 + c.2 }

end Sys2Proof.Machine
end

