-- ==== Sys2Proof/Machine/Engine.lean ====
section
/-! DEFINITION. The engine's transition tables (R94, R114) at byte granularity: one move is one row's action, or one byte of
the row's pair exchange. -/

namespace Sys2Proof.Machine

/-- One byte of a pair exchange (R94): the first byte received is held in `rx_hold`; with the second the pair is complete.
`opening` is what the row does before the exchange and `closing` what it does with the pair received. None when the exchange
never completes (R151). -/
def pairMove (f : Frame) (opening : State → State) (closing : Frame → State → State) (s : State) : Option State :=
  match s.engine.half with
  | .cmd =>
    match xfer f.1 (opening s) with
    | none => none
    | some (rx, t) => some (holdFirst rx t)
  | .data =>
    match xfer f.2 s with
    | none => none
    | some (rx, t) => some (closing (t.engine.rxHold, rx) (pairDone t))

/-- The pair received by the row `T_ADDR` (R87, R94). -/
def closeAddr (f : Frame) (s : State) : State := goto .tLead (setCnt (leadingPads s.engine.posQ) (capture f s))

/-- The pair received by a leading pad is discarded (R88, R94). -/
def closeLead (_ : Frame) (s : State) : State := setCnt (s.engine.cnt - 1#4) s

/-- The row `T_TOGGLE` (R89, R94). -/
def toggle (s : State) : State := goto .tTrail (setCnt (trailingCycles s.engine.posQ s.engine.totQ) (csLow (csHigh s)))

/-- The pair received by a trailing cycle is captured (R90, R94). -/
def closeTrail (f : Frame) (s : State) : State := setCnt (s.engine.cnt - 1#4) (capture f s)

/-- The row `T_END` (R91, R92, R94). -/
def endTransact (s : State) : State := goto .idle (verifyEcho (s.engine.cmdQ, s.engine.datQ) (csHigh s))

/-- The pair received while the sentinel is sent is discarded (R108, R114). -/
def closeSentinel (_ : Frame) (s : State) : State := goto .dScan s

/-- `cnt <- cnt + 1` of the row `D_SCAN` (R114). -/
def openScan (s : State) : State := setCnt (s.engine.cnt + 1#4) s

/-- The pair received by a scan cycle is captured and compared with the sentinel (R109, R110, R114). -/
def closeScan (f : Frame) (s : State) : State :=
  if f = sentinelFrame s.params then goto (.dEnd true) (capture f s) else capture f s

/-- The row `D_END` (R111, R112, R114). -/
def endDetect (found : Bool) (s : State) : State := goto .idle (reportCount found s.engine.cnt s.engine.totQ (csHigh s))

/-- The scan's bound is used up (R114): `cnt == CAL_MAX` between two pairs. -/
def scanExhausted (s : State) : Bool := decide (s.engine.half = .cmd) && decide (s.params.calMax ≤ s.engine.cnt.toNat)

/-- One move of the engine: a row of R94 or R114. None when the engine is idle, or waits for an exchange that never
completes (R151). -/
def engineStep (s : State) : Option State :=
  match s.engine.fsm with
  | .idle => none
  | .tStart => some (goto .tAddr (csLow s))
  | .tAddr => pairMove (s.engine.cmdQ, s.engine.datQ) id closeAddr s
  | .tLead => if s.engine.cnt = 0#4 then some (goto .tToggle s) else pairMove (nopFrame s.params) id closeLead s
  | .tToggle => some (toggle s)
  | .tTrail => if s.engine.cnt = 0#4 then some (goto .tEnd s) else pairMove (nopFrame s.params) id closeTrail s
  | .tEnd => some (endTransact s)
  | .dStart => some (goto .dSent (setCnt 0#4 (csLow s)))
  | .dSent => pairMove (sentinelFrame s.params) id closeSentinel s
  | .dScan => if scanExhausted s then some (goto (.dEnd false) s) else pairMove (nopFrame s.params) openScan closeScan s
  | .dEnd found => some (endDetect found s)

/-- The engine's turn: a move if it can make one, else nothing changes. -/
def advance (s : State) : State := (engineStep s).getD s

end Sys2Proof.Machine
end

