-- ==== Sys2Proof/Machine/Port.lean ====
section
/-! DEFINITION. The host port: what one port event does, an operation run with the events that land in it, the gate every
command word passes (R76, R77, R140), and how a command word is placed. -/

namespace Sys2Proof.Machine

/-- What the first of the pending port events does, `command` being what a write of a word to `CMD` does. With no event
pending, and at `WAIT` while busy, the engine has its turn. -/
def portStep (command : Word → State → Outcome) (s : State) : Outcome :=
  match s.port with
  | [] => .next (advance s)
  | .write off width v :: rest =>
    if accessAllowed off width then
      if off = 0 then command v { s with port := rest } else .next { s with port := rest }
    else .refused .accessOutsideInterface
  | .read off width :: rest =>
    if accessAllowed off width then .next (hostRead off { s with port := rest }) else .refused .accessOutsideInterface
  | .wait :: rest => if s.status.busy then .next (advance s) else .next (hostRead 4 { s with port := rest })
  | .engine :: rest => .next (advance { s with port := rest })
  | .reset :: rest => .next (resetFramer { s with port := rest })
  | .bringUp :: rest =>
    if s.status.busy then .refused .bringUpDuringOperation
    else if s.params.legal then .next (configureBus { s with port := rest })
    else .refused .illegalParameters

/-- Can the running operation take another turn? Not when it waits for an exchange that never completes and only the engine
could move. -/
def turnLeft (s : State) : Bool :=
  match s.port with
  | [] => (engineStep s).isSome
  | .wait :: _ => (engineStep s).isSome
  | _ => true

/-- One turn of a running operation: the next port event, a command written in it being dropped (R76), or a move of the
engine. None when the operation is over, stalled, or meets an event the spec gives no meaning. -/
def turn (s : State) : Option State :=
  if s.status.busy && turnLeft s then
    match portStep (fun _ t => .next (dropCommand t)) s with
    | .next t => some t
    | _ => none
  else none

/-- At most `k` turns. -/
def runTurns : Nat → State → State
  | 0, s => s
  | k + 1, s =>
    match turn s with
    | none => s
    | some t => runTurns k t

/-- More turns than any operation takes by itself: TRANSACT makes at most 37 moves, DETECT at most 35 (R94, R114). -/
def operationTurns : Nat := 64

/-- Run the operation just begun to its end (R65), the port events that land in it included. -/
def runOperation (s : State) : State := runTurns (s.port.length + operationTurns) s

/-- What every write to `CMD` passes, in the order of R128: before bring-up a command is outside the spec (R140); while busy
the word is dropped (R76); otherwise it is accepted (R77) and carried out. -/
def submit (body : State → State) (s : State) : Outcome :=
  if s.shift.setup.isSome then
    if s.status.busy then .next (dropCommand s) else .next (body (accept s))
  else .refused .commandBeforeBringUp

/-- A write of a word to `CMD`: the instruction it encodes, run by `run`, or the rejection of an illegal word (R74, R75, R78). -/
def writeCommand (run : Instr → State → Outcome) (w : Word) (s : State) : Outcome :=
  match decode w with
  | .ok i => run i s
  | .error _ => submit rejectIllegal s

/-- The state in which the next step writes the word `v` to `CMD` and the framer accepts it: bring-up done, no operation
running, the write first of the pending events (log 20). -/
def placeCommand (v : Word) (s : State) : State :=
  { s with
    port := .write 0 4 v :: s.port
    shift := { s.shift with setup := some s.params.busSetup }
    status := { s.status with busy := false }
    csN := .high
    engine := { s.engine with fsm := .idle, half := .cmd } }

/-- The word of an instruction as the opcode table numbers its bits; a row has at most the 32 bits of a command word. -/
def fetchWord (nbits w : Nat) : Word := BitVec.ofNat 32 (w % 2 ^ nbits)

end Sys2Proof.Machine
end

