-- ==== Sys2Proof/Machine/Detect.lean ====
section
/-! DEFINITION. DETECT (R106-R124): its meaning by the engine, and the procedure of R113 as the spec writes it. -/

namespace Sys2Proof.Machine

/-- What an accepted DETECT does (R78, R114); `E` is not validated (R117). -/
def detectBody (e : Nibble) (s : State) : State := runOperation (setBusy (latchDetect e s))

/-- DETECT `E`: a write of its word to `CMD`. -/
def execDetect (e : Nibble) (s : State) : Outcome := submit (detectBody e) s

/-- The scan of R113 with `k` no-op cycles made and `left` still allowed: whether the sentinel came back, the count, and the
state. None when an exchange never completes. -/
def scan : Nat → Nat → State → Option (Bool × Nat × State)
  | 0, k, s => some (false, k, s)
  | left + 1, k, s =>
    match xferPair (nopFrame s.params) s with
    | none => none
    | some (r, t) =>
      if r = sentinelFrame s.params then some (true, k + 1, capture r t) else scan left (k + 1) (capture r t)

/-- The procedure of R113 from its first `CS <- 0` to `finish`, on the registers and the bus; it does not touch the engine's
internal registers. None when an exchange never completes. -/
def detectProcedure (e : Nibble) (s : State) : Option State :=
  match xferPair (sentinelFrame s.params) (csLow s) with
  | none => none
  | some (_, t) =>
    match scan s.params.calMax 0 t with
    | none => none
    | some (found, k, u) => some (reportCount found (BitVec.ofNat 4 k) e (csHigh u))

end Sys2Proof.Machine
end

