-- ==== Sys2Proof/Machine/Transact.lean ====
section
/-! DEFINITION. TRANSACT (R84-R105): its meaning by the engine, and the procedure of R93 as the spec writes it. -/

namespace Sys2Proof.Machine

/-- What an accepted TRANSACT does: `BAD_ARGS` without a bus event (R85), or the operation (R78, R94). -/
def transactBody (p n : Nibble) (c d : Byte) (s : State) : State :=
  if badArgs p n then finish .badArgs s else runOperation (setBusy (latchTransact p n c d s))

/-- TRANSACT `p, N, c, d`: a write of its word to `CMD`. -/
def execTransact (p n : Nibble) (c d : Byte) (s : State) : Outcome := submit (transactBody p n c d) s

/-- `repeat k: XferPair(f)`, the pairs received discarded (R16, R88). None when an exchange never completes. -/
def repeatDiscard (f : Frame) : Nat → State → Option State
  | 0, s => some s
  | k + 1, s =>
    match xferPair f s with
    | none => none
    | some (_, t) => repeatDiscard f k t

/-- `repeat k: (ec, ed) <- XferPair(f); ECHO <- {ec, ed}` (R16, R90). -/
def repeatCapture (f : Frame) : Nat → State → Option State
  | 0, s => some s
  | k + 1, s =>
    match xferPair f s with
    | none => none
    | some (r, t) => repeatCapture f k (capture r t)

/-- The procedure of R93 from its first `CS <- 0` to `finish`, on the registers and the bus; it does not touch the engine's
internal registers. None when an exchange never completes. -/
def transactProcedure (p n : Nibble) (c d : Byte) (s : State) : Option State :=
  match xferPair (c, d) (csLow s) with
  | none => none
  | some (r, t) =>
    match repeatDiscard (nopFrame s.params) (p.toNat - 1) (capture r t) with
    | none => none
    | some u =>
      match repeatCapture (nopFrame s.params) (n.toNat - p.toNat + 1) (csLow (csHigh u)) with
      | none => none
      | some v => some (verifyEcho (c, d) (csHigh v))

end Sys2Proof.Machine
end

