-- ==== Sys2Proof/Machine/Dispatch.lean ====
section
/-! DEFINITION. One arm per instruction: each calls its meaning. -/

namespace Sys2Proof.Machine

def exec (i : Instr) (s : State) : Host.Outcome State Fault Refusal :=
  match i with
  | .transact p n c d => Sys2Proof.Machine.execTransact p n c d s
  | .detect e => Sys2Proof.Machine.execDetect e s

end Sys2Proof.Machine
end

