-- ==== Sys2Proof/Machine/Step.lean ====
section
/-! DEFINITION. One step: the first pending port event (a write to `CMD` runs the instruction its word encodes), or the
engine's turn; and where the next command word is placed. -/

namespace Sys2Proof.Machine

/-- One step of the machine. -/
def step (s : State) : Host.Outcome State Fault Refusal := portStep (writeCommand exec) s

/-- The command word `w` placed so that the very next step runs it. -/
def State.withFetchWord (s : State) (nbits w : Nat) : State := placeCommand (fetchWord nbits w) s

end Sys2Proof.Machine
end

