-- ==== Sys2Proof/Safety.lean ====
section
/-! DEFINITION. The terms the claims use: the machine's invariant, the premises about the host and the bus, the bus traces of
R93 and R113, and framing of exchanges by chip select. -/

namespace Sys2Proof.Machine

/-! ### The invariant -/

/-- The level of `cs_n` in each engine step (R36, R94, R114). -/
def Fsm.level : Fsm → Level
  | .idle => .high
  | .tStart => .high
  | .dStart => .high
  | .tAddr | .tLead | .tToggle | .tTrail | .tEnd | .dSent | .dScan | .dEnd _ => .low

/-- The engine steps whose rows hold a pair exchange (R94, R114). -/
def Fsm.exchanges : Fsm → Bool
  | .tAddr | .tLead | .tTrail | .dSent | .dScan => true
  | .idle | .tStart | .tToggle | .tEnd | .dStart | .dEnd _ => false

/-- The latched operands fit the engine step: TRANSACT's arguments passed R85. -/
abbrev Engine.operandsOk (e : Engine) : Prop :=
  match e.fsm with
  | .idle => True
  | .tStart | .tAddr | .tLead | .tToggle | .tTrail | .tEnd => e.opQ = .transact ∧ badArgs e.posQ e.totQ = false
  | .dStart | .dSent | .dScan | .dEnd _ => e.opQ = .detect

/-- The counter's range in each engine step that uses it (R94, R114, R115). -/
abbrev State.counterOk (s : State) : Prop :=
  match s.engine.fsm with
  | .tLead => s.engine.cnt.toNat ≤ s.engine.posQ.toNat - 1 ∧ (s.engine.half = .data → s.engine.cnt ≠ 0#4)
  | .tTrail => s.engine.cnt.toNat ≤ s.engine.totQ.toNat - s.engine.posQ.toNat + 1 ∧ (s.engine.half = .data → s.engine.cnt ≠ 0#4)
  | .dSent => s.engine.cnt = 0#4
  | .dScan => s.engine.cnt.toNat ≤ s.params.calMax ∧ (s.engine.half = .data → 1 ≤ s.engine.cnt.toNat)
  | .dEnd true =>
    1 ≤ s.engine.cnt.toNat ∧ s.engine.cnt.toNat ≤ s.params.calMax ∧ (s.echo.cmd, s.echo.data) = sentinelFrame s.params
  | .dEnd false => s.engine.cnt.toNat = s.params.calMax
  | .idle | .tStart | .tAddr | .tToggle | .tEnd | .dStart => True

/-- What holds of every state a run from reset reaches. -/
structure State.Inv (s : State) : Prop where
  /-- R26: `BUSY` exactly while the engine is not `IDLE`. -/
  busy_iff_running : s.status.busy = true ↔ s.engine.fsm ≠ .idle
  /-- R36, R51: `cs_n` is low exactly in the steps between the first `CsLow` and the last `CsHigh`. -/
  cs_level : s.csN = s.engine.fsm.level
  /-- R27: no result while an operation runs. -/
  busy_not_done : s.status.busy = true → s.status.done = false
  /-- R27: while `DONE == 0`, `PASS` is 0 and `KIND` is `OK`. -/
  result_cleared : s.status.done = false → s.status.pass = false ∧ s.status.kind = .ok
  /-- R28: `PASS` equals `KIND == OK` whenever `DONE == 1`. -/
  pass_is_ok : s.status.done = true → s.status.pass = decide (s.status.kind = .ok)
  /-- R85: a running TRANSACT has `1 <= p <= N`. -/
  operands_ok : s.engine.operandsOk
  /-- R94: the second byte of a pair is due only in a step that exchanges pairs. -/
  half_ok : s.engine.half = .data → s.engine.fsm.exchanges = true
  /-- R94, R115: the counter's ranges. -/
  counter_ok : s.counterOk
  /-- R31, R111, R115: `CAL_OK` says that the two counts in `CAL` agree, and are a count a DETECT can find. -/
  cal_ok : s.status.calOk = true →
    s.cal.detected = s.cal.expected ∧ 1 ≤ s.cal.detected.toNat ∧ s.cal.detected.toNat ≤ s.params.calMax
  /-- R9: after bring-up the parameters are legal. -/
  bring_up : s.shift.setup.isSome = true → s.params.legal = true
  /-- R140: an operation runs only after bring-up. -/
  busy_after_bring_up : s.status.busy = true → s.shift.setup.isSome = true
  /-- R52: the chain's data is well formed, its output registers in their canonical form. -/
  env_wf : s.env.wf

/-! ### Premises of claims -/

/-- The framer can accept a command: bring-up is done and no operation runs (R77, R140). -/
abbrev State.ready (s : State) : Prop := s.shift.setup.isSome = true ∧ s.status.busy = false

/-- Nothing lands in an operation begun now: no port event is pending, or the host waits for its end (R82). -/
abbrev State.undisturbed (s : State) : Prop := s.port = [] ∨ s.port.head? = some .wait

/-- At least `k` more exchanges complete (the premise R155 names, for `k` exchanges). -/
abbrev State.completesAtLeast (s : State) (k : Nat) : Prop := ∀ c, s.shift.completes = some c → k ≤ c

/-- No reset is pending. -/
abbrev State.noReset (s : State) : Prop := PortEvent.reset ∉ s.port

/-- A port event that is a host access of the interface, a `WAIT` or an engine move: no reset, no bring-up, no access outside
the interface. -/
def PortEvent.harmless : PortEvent → Bool
  | .write off width _ => accessAllowed off width
  | .read off width => accessAllowed off width
  | .wait => true
  | .engine => true
  | .reset => false
  | .bringUp => false

/-! ### Traces -/

/-- The two events of one pair exchange: the frame sent and the frame received (R13). -/
def pairEvents (f r : Frame) : List BusEvent := [.xfer f.1 r.1, .xfer f.2 r.2]

/-- The bus trace of R93: `r` is received while the addressed frame is sent, `leads` and `trails` while the no-op pair is. -/
def transactTrace (P : Params) (c d : Byte) (r : Frame) (leads trails : List Frame) : List BusEvent :=
  [.csLow] ++ pairEvents (c, d) r ++ leads.flatMap (pairEvents (nopFrame P)) ++ [.csHigh, .csLow] ++
    trails.flatMap (pairEvents (nopFrame P)) ++ [.csHigh]

/-- The bus trace of R113: `r` is received while the sentinel is sent, `scans` while the no-op pair is. -/
def detectTrace (P : Params) (r : Frame) (scans : List Frame) : List BusEvent :=
  [.csLow] ++ pairEvents (sentinelFrame P) r ++ scans.flatMap (pairEvents (nopFrame P)) ++ [.csHigh]

/-- Is the event a byte exchange? -/
def BusEvent.isXfer : BusEvent → Bool
  | .xfer _ _ => true
  | .csLow => false
  | .csHigh => false

/-- Follow the chip select through a list of events from a level: none if a byte is exchanged while it is high, or an edge
does not change it (R51, R36). -/
def framed : Level → List BusEvent → Option Level
  | l, [] => some l
  | .high, .csLow :: es => framed .low es
  | .low, .csHigh :: es => framed .high es
  | .low, .xfer _ _ :: es => framed .low es
  | _, _ :: _ => none

/-! ### Views of a state -/

/-- The state without the internal engine registers that R41 leaves unspecified. -/
def State.forgetRegisters (s : State) : State := { s with engine := { Engine.reset with fsm := s.engine.fsm } }

/-- An outcome with its next state seen through a view. -/
def viewOutcome (view : State → State) : Outcome → Outcome
  | .next s => .next (view s)
  | .fault f => .fault f
  | .refused r => .refused r

/-- The state without what host accesses may change while an operation runs: the events to come, the values read, and
`OVERRUN`. -/
def State.forgetHost (s : State) : State :=
  { s with port := [], reads := [], readDraws := 0, status := { s.status with overrun := false } }

end Sys2Proof.Machine
end

