-- ==== Sys2Proof/Certificates/Slice0/Obligations.lean ====
section
/-! DEFINITION. The statements for the provers. Each docstring names the rules of the spec it formalises. -/

open Sys2Proof Sys2Proof.Machine

/-! ### Encoding -/

/-- R71, R72, R73, R78: every instruction, with every operand at every value its field admits, is read back from its word. -/
def Obligations.DecodeOfEncodeIsTheInstruction : Prop := ∀ i : Instr, decode (encode i) = .ok i

/-- R71, R72, R79: a word that decodes is the word of what it decodes to; no bit is dropped. -/
def Obligations.EncodeOfDecodeIsTheWord : Prop := ∀ (w : Word) (i : Instr), decode w = .ok i → encode i = w

/-- R70, R75, R79: the decoder accepts exactly the words of the two patterns, and names why it refuses every other. -/
def Obligations.DecoderAcceptsExactlyTheLegalWords : Prop :=
  ∀ w : Word,
    ((∃ i, decode w = .ok i) ↔ ((w &&& 0xF00F0000#32) = 0x10000000#32 ∨ (w &&& 0xFF0FFFFF#32) = 0x20000000#32)) ∧
    (decode w = .error .unassignedOpcode ↔ (w.extractLsb' 28 4 ≠ 1#4 ∧ w.extractLsb' 28 4 ≠ 2#4))

/-- R83: the encoding examples, as the assembler writes them and as the decoder reads them. -/
def Obligations.EncodingExamplesHold : Prop :=
  assemble (.transact 1 1 0x12 0x01) = some 0x11101201#32 ∧ decode 0x11101201#32 = .ok (.transact 1 1 0x12 0x01) ∧
  assemble (.transact 2 3 0x21 0x7F) = some 0x1230217F#32 ∧ decode 0x1230217F#32 = .ok (.transact 2 3 0x21 0x7F) ∧
  assemble (.transact 0 3 0x21 0x7F) = some 0x1030217F#32 ∧ decode 0x1030217F#32 = .ok (.transact 0 3 0x21 0x7F) ∧
  badArgs 0 3 = true ∧
  assemble (.detect 3) = some 0x20300000#32 ∧ decode 0x20300000#32 = .ok (.detect 3) ∧
  assemble (.word 0x30000000) = some 0x30000000#32 ∧ decode 0x30000000#32 = .error .unassignedOpcode ∧
  assemble (.word 0x20310000) = some 0x20310000#32 ∧ decode 0x20310000#32 = .error .reservedFieldNonzero ∧
  assemble (.word 0x10010000) = some 0x10010000#32 ∧ decode 0x10010000#32 = .error .reservedFieldNonzero

/-- R81: the assembler's three formulas, and that an operand outside its range is an error. The first two give the word of
the instruction. -/
def Obligations.AssemblerWritesTheEncodings : Prop :=
  (∀ p n c d : Nat, p < 16 → n < 16 → c < 256 → d < 256 →
    assemble (.transact p n c d) = some (BitVec.ofNat 32 (0x10000000 ||| p <<< 24 ||| n <<< 20 ||| c <<< 8 ||| d)) ∧
    assemble (.transact p n c d) =
      some (encode (.transact (BitVec.ofNat 4 p) (BitVec.ofNat 4 n) (BitVec.ofNat 8 c) (BitVec.ofNat 8 d)))) ∧
  (∀ e : Nat, e < 16 →
    assemble (.detect e) = some (BitVec.ofNat 32 (0x20000000 ||| e <<< 20)) ∧
    assemble (.detect e) = some (encode (.detect (BitVec.ofNat 4 e)))) ∧
  (∀ v : Nat, v < 2 ^ 32 → assemble (.word v) = some (BitVec.ofNat 32 v)) ∧
  (∀ p n c d : Nat, 16 ≤ p ∨ 16 ≤ n ∨ 256 ≤ c ∨ 256 ≤ d → assemble (.transact p n c d) = none) ∧
  (∀ e : Nat, 16 ≤ e → assemble (.detect e) = none) ∧
  (∀ v : Nat, 2 ^ 32 ≤ v → assemble (.word v) = none)

/-! ### Registers, reset and the host window -/

/-- R25, R30, R32, R35: every field of the three result registers at its bits, the reserved bits zero, the codes of `KIND`,
with 6 and 7 never among them. -/
def Obligations.RegisterWordsHoldTheFields : Prop :=
  (∀ f : Status,
    f.word.getLsbD 0 = f.busy ∧ f.word.getLsbD 1 = f.done ∧ f.word.getLsbD 2 = f.pass ∧ f.word.getLsbD 3 = f.overrun ∧
    f.word.extractLsb' 4 3 = f.kind.code ∧ f.word.getLsbD 7 = f.calOk ∧ f.word.extractLsb' 8 24 = 0#24) ∧
  (Kind.ok.code = 0#3 ∧ Kind.echoMismatch.code = 1#3 ∧ Kind.lengthMismatch.code = 2#3 ∧ Kind.notFound.code = 3#3 ∧
    Kind.badArgs.code = 4#3 ∧ Kind.illegalCmd.code = 5#3 ∧ ∀ k : Kind, k.code ≠ 6#3 ∧ k.code ≠ 7#3) ∧
  (∀ e : Echo, e.word.extractLsb' 0 8 = e.data ∧ e.word.extractLsb' 8 8 = e.cmd ∧ e.word.extractLsb' 16 16 = 0#16) ∧
  (∀ c : Cal, c.word.extractLsb' 0 4 = c.detected ∧ c.word.extractLsb' 4 4 = c.expected ∧ c.word.extractLsb' 8 24 = 0#24)

/-- R41: the values the spec gives for the machine right after reset. -/
def Obligations.ResetLeavesTheResetValues : Prop :=
  State.reset.csN = .high ∧ State.reset.engine.fsm = .idle ∧ State.reset.status.word = 0x00000000#32 ∧
    State.reset.status.kind = .ok ∧ State.reset.echo.word = 0x00000000#32 ∧ State.reset.cal.word = 0x00000000#32

/-- R138: a reset, whatever the framer was doing, puts the framer in the state of R41, makes no byte exchange, and afterwards
the framer waits for a command word: with nothing at the port a step changes nothing. -/
def Obligations.ResetEventPutsTheFramerInReset : Prop :=
  ∀ (s : State) (rest : List PortEvent), s.port = .reset :: rest →
    ∃ (t : State) (new : List BusEvent), step s = .next t ∧ t.csN = .high ∧ t.engine.fsm = .idle ∧
      t.status.word = 0x00000000#32 ∧ t.echo.word = 0x00000000#32 ∧ t.cal.word = 0x00000000#32 ∧
      t.trace = s.trace ++ new ∧ (∀ e ∈ new, BusEvent.isXfer e = false) ∧
      step { t with port := [] } = .next { t with port := [] }

/-- What the model keeps over a reset (logs 8 and 10, the model's choice): it records no bus event at all, and the parameters,
the shift engine's setup, the host's reads and the events to come stay. A bus that is not stalled goes on as before; after a
stall it is a free draw how many exchanges complete. -/
def Obligations.ResetKeepsWhatIsNotTheFramers : Prop :=
  ∀ (s : State) (rest : List PortEvent), s.port = .reset :: rest →
    ∃ t, step s = .next t ∧ t.trace = s.trace ∧ t.params = s.params ∧ t.shift.setup = s.shift.setup ∧ t.port = rest ∧
      t.reads = s.reads ∧ t.readDraws = s.readDraws ∧
      (s.shift.completes ≠ some 0 → t.shift.completes = s.shift.completes) ∧
      (s.shift.completes = some 0 → t.shift.completes = Config.exchangesThatComplete s.rxDraws)

/-- A reset leaves no result (R139). What it does to the chain environment is log 9's form of R139's "unspecified", the
model's choice: during an operation a reference chain keeps its depth and every byte of its queue and of its output registers
is a free draw, and a free environment keeps no answer; out of an operation, with `cs_n` high, the environment stays. The
statement holds whatever bytes the draws give. -/
def Obligations.ResetDuringOperationForgetsTheChain : Prop :=
  ∀ (s : State) (rest : List PortEvent), s.port = .reset :: rest →
    ∃ t, step s = .next t ∧ t.status.done = false ∧ t.status.busy = false ∧
      (s.status.busy = true → ∀ ch, s.env = .reference ch →
        ∃ ch', t.env = .reference ch' ∧ ch'.depth = ch.depth ∧
          (∀ k, k < 2 * ch.depth → ch'.queue[k]? = some (Config.freeStageByte s.rxDraws k)) ∧ ch'.queue.length = 2 * ch.depth ∧
          (∀ (b : Nat) (r : Byte), 1 ≤ b → b ≤ ch.depth →
            ch'.out.read (outAddr b r) = some (Config.freeOutByte s.rxDraws (outAddr b r)))) ∧
      (s.status.busy = true → ∀ answers, s.env = .oracle answers → t.env = .oracle []) ∧
      (s.status.busy = false → s.csN = .high → t.env = s.env ∧ (s.shift.completes ≠ some 0 → t.rxDraws = s.rxDraws))

/-- R24: a host write to `STATUS`, `ECHO` or `CAL` has no effect; a host read of `CMD` returns 0 and has no effect (the value
read is noted in the model's own log). -/
def Obligations.ReadOnlyRegistersIgnoreWritesAndCmdReadsZero : Prop :=
  ∀ (s : State) (rest : List PortEvent) (v : Word),
    (s.port = .write 4 4 v :: rest → step s = .next { s with port := rest }) ∧
    (s.port = .write 8 4 v :: rest → step s = .next { s with port := rest }) ∧
    (s.port = .write 12 4 v :: rest → step s = .next { s with port := rest }) ∧
    (s.port = .read 0 4 :: rest → step s = .next { s with port := rest, reads := s.reads ++ [(0, 0x00000000#32)] })

/-- R23, R25, R32, R35, R45: a read of `STATUS` at any time, and of `ECHO` and `CAL` while idle, returns the register and
changes nothing but the model's own log of reads. -/
def Obligations.ReadsReturnTheRegisters : Prop :=
  ∀ (s : State) (rest : List PortEvent),
    (s.port = .read 4 4 :: rest → step s = .next { s with port := rest, reads := s.reads ++ [(4, s.status.word)] }) ∧
    (s.port = .read 8 4 :: rest → s.status.busy = false →
      step s = .next { s with port := rest, reads := s.reads ++ [(8, s.echo.word)] }) ∧
    (s.port = .read 12 4 :: rest → s.status.busy = false →
      step s = .next { s with port := rest, reads := s.reads ++ [(12, s.cal.word)] })

/-- R34: a read of `ECHO` or `CAL` while busy completes with a value drawn freely (the statement holds whatever word the
draw gives), no register changing; a read of `STATUS` while busy returns the exact current values. -/
def Obligations.ReadsWhileBusyAreUnspecified : Prop :=
  ∀ (s : State) (rest : List PortEvent), s.status.busy = true →
    (∀ off, off = 8 ∨ off = 12 → s.port = .read off 4 :: rest →
      ∃ v, step s = .next { s with port := rest, reads := s.reads ++ [(off, v)], readDraws := s.readDraws + 1 } ∧
        v = Config.freeHostWord s.readDraws) ∧
    (s.port = .read 4 4 :: rest → step s = .next { s with port := rest, reads := s.reads ++ [(4, s.status.word)] })

/-- R44 and I4 of `93_implementation_defined.md`: an access of another width, alignment or place is refused; an access of the
interface never is for that reason. -/
def Obligations.AccessesOutsideTheInterfaceAreRefused : Prop :=
  ∀ (s : State) (rest : List PortEvent) (off width : Nat) (v : Word),
    (width ≠ 4 ∨ off % 4 ≠ 0 ∨ 16 ≤ off →
      (s.port = .write off width v :: rest → step s = .refused .accessOutsideInterface) ∧
      (s.port = .read off width :: rest → step s = .refused .accessOutsideInterface)) ∧
    (width = 4 ∧ (off = 0 ∨ off = 4 ∨ off = 8 ∨ off = 12) →
      (s.port = .write off width v :: rest → step s ≠ .refused .accessOutsideInterface) ∧
      (s.port = .read off width :: rest → ∃ t, step s = .next t))

/-- `WAIT` (R82) holds the host while `BUSY` is 1, the engine having its turns, and is over when a read of `STATUS` shows
`BUSY` clear. That the polls which show `BUSY` set are not noted in the log of reads is the model's choice (log 17). -/
def Obligations.WaitPollsUntilNotBusy : Prop :=
  ∀ (s : State) (rest : List PortEvent), s.port = .wait :: rest →
    (s.status.busy = false → step s = .next { s with port := rest, reads := s.reads ++ [(4, s.status.word)] }) ∧
    (s.status.busy = true → step s = .next (advance s) ∧ (advance s).port = s.port)

/-- The bring-up hook (R140) out of an operation configures the shift engine with the platform's setup exactly when the
parameters are legal (R9); other parameters are refused, and so is the hook while an operation runs. That legality is checked
at the hook (logs 3 and 12), that a second hook configures again, and that the hook during an operation is refused (log 12)
are the model's choices. -/
def Obligations.BringUpNeedsLegalParameters : Prop :=
  ∀ (s : State) (rest : List PortEvent), s.port = .bringUp :: rest →
    let P := s.params
    (s.status.busy = true → step s = .refused .bringUpDuringOperation) ∧
    (s.status.busy = false → ((P.sentinelCmd, P.sentinelData) ≠ (P.nopCmd, P.nopData) ∧ 1 ≤ P.calMax ∧ P.calMax ≤ 15) →
      step s = .next { s with port := rest, shift := { s.shift with setup := some P.busSetup } }) ∧
    (s.status.busy = false → ¬((P.sentinelCmd, P.sentinelData) ≠ (P.nopCmd, P.nopData) ∧ 1 ≤ P.calMax ∧ P.calMax ≤ 15) →
      step s = .refused .illegalParameters)

/-- R140: a command issued before bring-up is refused, whatever its word. -/
def Obligations.CommandsBeforeBringUpAreRefused : Prop :=
  ∀ (s : State) (rest : List PortEvent) (w : Word), s.shift.setup = none → s.port = .write 0 4 w :: rest →
    step s = .refused .commandBeforeBringUp

/-! ### The boards' output registers -/

/-- R52: in a well-formed reference chain of `M` boards every board `1..M` has an output register for every register address,
which holds a byte, and there is no other. -/
def Obligations.EveryOutputRegisterHoldsAByte : Prop :=
  ∀ (ch : Chain), ch.wf → ∀ (b : Nat) (r : Byte),
    (1 ≤ b → b ≤ ch.depth → ∃ v, ch.out.read (outAddr b r) = some v) ∧
    (b = 0 ∨ ch.depth < b → ch.out.read (outAddr b r) = none)

/-- The environment at power-up (R42, R58), drawn freely: a reference chain of at least one board with a free byte at every
place of its queue and in every output register, or an environment of which no answer is laid down. That these are the two
forms, and that one constant draws between them and gives the number of boards, is the model's choice (log 11). -/
def Obligations.PowerUpEnvironmentIsFree : Prop :=
  (∃ ch, State.reset.env = .reference ch ∧ 1 ≤ ch.depth ∧ ch.queue.length = 2 * ch.depth ∧
    (∀ j, j < 2 * ch.depth → ch.queue[j]? = some (Config.freeStageByte 0 j)) ∧
    (∀ (b : Nat) (r : Byte), 1 ≤ b → b ≤ ch.depth →
      ch.out.read (outAddr b r) = some (Config.freeOutByte 0 (outAddr b r)))) ∨
  State.reset.env = .oracle []

/-! ### Steps and acceptance -/

/-- A step whose first port event writes the word of an instruction to `CMD` is that instruction's `exec` on the state with
the event taken off. -/
def Obligations.StepRunsTheDecodedInstruction : Prop :=
  ∀ (s : State) (rest : List PortEvent) (w : Word) (i : Instr), s.port = .write 0 4 w :: rest → decode w = .ok i →
    step s = exec i { s with port := rest }

/-- Where a command word is placed for the next step (log 20): the step runs the instruction the opcode table's bits decode
to, on a framer that is ready and that changes nothing else of the state, and it answers a next state. -/
def Obligations.PlacedWordIsRunByTheNextStep : Prop :=
  ∀ (s : State) (nbits w : Nat) (i : Instr), decodeTableWord nbits w = some i →
    ∃ u, step (s.withFetchWord nbits w) = exec i u ∧ u.ready ∧ u.port = s.port ∧ u.params = s.params ∧ u.env = s.env ∧
      u.trace = s.trace ∧ u.echo = s.echo ∧ u.cal = s.cal ∧ ∃ t, exec i u = .next t

/-- R76, R128 (1): any word written while busy is dropped: only `OVERRUN` changes, and neither `ILLEGAL_CMD` nor `BAD_ARGS` is
reported. -/
def Obligations.WordWrittenWhileBusyIsDropped : Prop :=
  ∀ (s : State) (rest : List PortEvent) (w : Word), s.shift.setup.isSome = true → s.status.busy = true →
    s.port = .write 0 4 w :: rest →
    step s = .next { s with port := rest, status := { s.status with overrun := true } }

/-- R74, R75, R77: an illegal word written while idle is accepted and finished with `ILLEGAL_CMD`: no bus event, and no state
changes but the status fields. -/
def Obligations.IllegalWordIsRejected : Prop :=
  ∀ (s : State) (rest : List PortEvent) (w : Word), s.ready → s.port = .write 0 4 w :: rest →
    ¬((w &&& 0xF00F0000#32) = 0x10000000#32 ∨ (w &&& 0xFF0FFFFF#32) = 0x20000000#32) →
    step s = .next { s with
      port := rest
      status := { busy := false, done := true, pass := false, overrun := false, kind := .illegalCmd, calOk := s.status.calOk } }

/-- R85: a TRANSACT with `N == 0`, `p == 0` or `p > N` finishes with `BAD_ARGS`, `PASS = 0`, no bus event, and leaves every
other register as it was. -/
def Obligations.TransactWithBadArgumentsIsRejected : Prop :=
  ∀ (s : State) (p n : Nibble) (c d : Byte), s.ready → (n.toNat = 0 ∨ p.toNat = 0 ∨ n.toNat < p.toNat) →
    exec (.transact p n c d) s = .next { s with
      status := { busy := false, done := true, pass := false, overrun := false, kind := .badArgs, calOk := s.status.calOk } }

/-- R130: while no command is written and no reset comes, an idle framer keeps its result: a step changes none of its
registers, its `cs_n`, its engine and its chain. -/
def Obligations.ResultPersistsUntilTheNextCommandOrReset : Prop :=
  ∀ s t : State, s.status.busy = false → s.engine.fsm = .idle → step s = .next t →
    (∀ v width rest, s.port ≠ .write 0 width v :: rest) → (∀ rest, s.port ≠ .reset :: rest) →
    t.status = s.status ∧ t.echo = s.echo ∧ t.cal = s.cal ∧ t.csN = s.csN ∧ t.engine = s.engine ∧ t.env = s.env ∧
      t.trace = s.trace

/-! ### TRANSACT -/

/-- R93: on a ready framer that nothing disturbs, a TRANSACT with good arguments whose exchanges complete does what the
procedure of R93 does, in every register, every bus event and the environment; of the engine's internal registers it says
what R78 and R94 leave in them. -/
def Obligations.TransactFollowsItsProcedure : Prop :=
  ∀ (s t : State) (p n : Nibble) (c d : Byte), s.ready → s.undisturbed → 1 ≤ p.toNat → p.toNat ≤ n.toNat →
    transactProcedure p n c d (accept s) = some t →
    exec (.transact p n c d) s = .next { t with
      engine := { fsm := .idle, half := .cmd, opQ := .transact, posQ := p, totQ := n, cmdQ := c, datQ := d, cnt := 0#4,
                  rxHold := t.echo.cmd } }

/-- R86-R93, R95, R98: a TRANSACT completes whatever the environment answers, if `2N + 2` exchanges complete: its trace is
that of R93, `ECHO` is the pair of its last trailing cycle, the result is `OK` exactly when that pair is the frame sent and
`ECHO_MISMATCH` otherwise, it ends idle with `cs_n` high, and `CAL`, `CAL_OK`, the parameters and the port are as before. -/
def Obligations.TransactCompletes : Prop :=
  ∀ (s : State) (p n : Nibble) (c d : Byte), s.ready → s.undisturbed → 1 ≤ p.toNat → p.toNat ≤ n.toNat →
    s.completesAtLeast (2 * n.toNat + 2) →
    ∃ (t : State) (r last : Frame) (leads trails : List Frame),
      exec (.transact p n c d) s = .next t ∧
      leads.length = p.toNat - 1 ∧ trails.length = n.toNat - p.toNat + 1 ∧ trails.getLast? = some last ∧
      t.trace = s.trace ++ transactTrace s.params c d r leads trails ∧
      t.echo = { cmd := last.1, data := last.2 } ∧
      t.status = { busy := false, done := true, pass := decide (last = (c, d)), overrun := false,
                   kind := if last = (c, d) then .ok else .echoMismatch, calOk := s.status.calOk } ∧
      t.csN = .high ∧ t.engine.fsm = .idle ∧ t.cal = s.cal ∧ t.params = s.params ∧ t.port = s.port ∧ t.reads = s.reads ∧
      t.shift.setup = s.shift.setup

/-- R95, R154: the counts of a TRANSACT: `2N + 2` byte exchanges, four CS edges, `2N + 6` events. -/
def Obligations.TransactEventCounts : Prop :=
  ∀ (s : State) (p n : Nibble) (c d : Byte), s.ready → s.undisturbed → 1 ≤ p.toNat → p.toNat ≤ n.toNat →
    s.completesAtLeast (2 * n.toNat + 2) →
    ∃ (t : State) (new : List BusEvent), exec (.transact p n c d) s = .next t ∧ t.trace = s.trace ++ new ∧
      new.countP BusEvent.isXfer = 2 * n.toNat + 2 ∧ new.count .csLow = 2 ∧ new.count .csHigh = 2 ∧
      new.length = 2 * n.toNat + 6

/-- R98 and the frame of TRANSACT: from any state, whatever lands in it but a reset, TRANSACT writes neither `CAL` nor
`CAL_OK`, nor the parameters or the bring-up setup, and only adds bus events. -/
def Obligations.TransactLeavesCalibrationAlone : Prop :=
  ∀ (s t : State) (p n : Nibble) (c d : Byte), s.noReset →
    exec (.transact p n c d) s = .next t →
    t.cal = s.cal ∧ t.status.calOk = s.status.calOk ∧ t.params = s.params ∧ t.shift.setup = s.shift.setup ∧
      s.trace <+: t.trace

/-- R102, R146: a TRANSACT on a chain of the reference model with as many boards as `total` says, whatever its stages held:
`OK`; the chain left flushed; board `p` holds `d` in register `c`; every board `b > p` holds in its register the stale frame
that stood in `stage(b - p)`; and no other output register of any board changes but the no-op register, nor any other byte of
the output memory. A frame whose command byte is the no-op register is overwritten by the last latch, so it is left out of
the two clauses about what is latched. -/
def Obligations.TransactOnTheRightChain : Prop :=
  ∀ (s : State) (ch : Chain) (p n : Nibble) (c d : Byte), s.ready → s.undisturbed → s.env = .reference ch → ch.wf →
    ch.depth = n.toNat → 1 ≤ p.toNat → p.toNat ≤ n.toNat → s.completesAtLeast (2 * n.toNat + 2) →
    ∃ (t : State) (ch' : Chain), exec (.transact p n c d) s = .next t ∧ t.env = .reference ch' ∧ t.status.kind = .ok ∧
      t.status.pass = true ∧ t.echo = { cmd := c, data := d } ∧ ch'.depth = ch.depth ∧ ch'.flushed s.params = true ∧ ch'.wf ∧
      (c ≠ s.params.nopCmd → ch'.out.read (outAddr p.toNat c) = some d) ∧
      (∀ (b : Nat) (f : Frame), p.toNat < b → b ≤ n.toNat → ch.stage (b - p.toNat) = some f → f.1 ≠ s.params.nopCmd →
        ch'.out.read (outAddr b f.1) = some f.2) ∧
      (∀ (b : Nat) (r : Byte), r ≠ s.params.nopCmd → (b = p.toNat → r ≠ c) →
        (∀ f, p.toNat < b → ch.stage (b - p.toNat) = some f → r ≠ f.1) →
        ch'.out.read (outAddr b r) = ch.out.read (outAddr b r)) ∧
      (∀ r : Byte, ch'.out.read (outAddr 0 r) = ch.out.read (outAddr 0 r)) ∧
      (∀ (b : Nat) (r : Byte), n.toNat < b → ch'.out.read (outAddr b r) = ch.out.read (outAddr b r))

/-- R103, R147: a TRANSACT with the wrong `total` on a flushed reference chain, its frame not the no-op pair:
`ECHO_MISMATCH`, and the last echo is the no-op pair. The write took effect if board `p` exists; on a longer chain board
`N + 1` is corrupted; no other register but the no-op register changes. -/
def Obligations.TransactOnAChainOfAnotherLength : Prop :=
  ∀ (s : State) (ch : Chain) (p n : Nibble) (c d : Byte), s.ready → s.undisturbed → s.env = .reference ch → ch.wf →
    ch.flushed s.params = true → ch.depth ≠ n.toNat → 1 ≤ p.toNat → p.toNat ≤ n.toNat → (c, d) ≠ nopFrame s.params →
    s.completesAtLeast (2 * n.toNat + 2) →
    ∃ (t : State) (ch' : Chain), exec (.transact p n c d) s = .next t ∧ t.env = .reference ch' ∧
      t.status.kind = .echoMismatch ∧ t.status.pass = false ∧ t.echo = { cmd := s.params.nopCmd, data := s.params.nopData } ∧
      (p.toNat ≤ ch.depth → c ≠ s.params.nopCmd → ch'.out.read (outAddr p.toNat c) = some d) ∧
      (n.toNat < ch.depth → ch'.out.read (outAddr (n.toNat + 1) c) = some d) ∧
      (∀ (b : Nat) (r : Byte), r ≠ s.params.nopCmd → ¬(b = p.toNat ∧ b ≤ ch.depth ∧ r = c) →
        ¬(b = n.toNat + 1 ∧ b ≤ ch.depth ∧ r = c) → ch'.out.read (outAddr b r) = ch.out.read (outAddr b r))

/-- R104, R153: a frame equal to the no-op pair passes on every flushed reference chain, whatever its length. -/
def Obligations.TransactOfTheNoOpPairAlwaysPassesWhenFlushed : Prop :=
  ∀ (s : State) (ch : Chain) (p n : Nibble), s.ready → s.undisturbed → s.env = .reference ch → ch.wf →
    ch.flushed s.params = true → 1 ≤ p.toNat → p.toNat ≤ n.toNat → s.completesAtLeast (2 * n.toNat + 2) →
    ∃ (t : State) (ch' : Chain), exec (.transact p n s.params.nopCmd s.params.nopData) s = .next t ∧ t.status.kind = .ok ∧
      t.env = .reference ch' ∧ ch'.flushed s.params = true

/-! ### DETECT -/

/-- R113: on a ready framer that nothing disturbs, a DETECT whose exchanges complete does what the procedure of R113 does; of
the engine's internal registers it says what R78 and R114 leave in them. -/
def Obligations.DetectFollowsItsProcedure : Prop :=
  ∀ (s t : State) (e : Nibble), s.ready → s.undisturbed → s.params.legal = true →
    detectProcedure e (accept s) = some t →
    exec (.detect e) s = .next { t with
      engine := { s.engine with
        fsm := .idle, half := .cmd, opQ := .detect, totQ := e, rxHold := t.echo.cmd
        cnt := if t.status.kind = .notFound then BitVec.ofNat 4 s.params.calMax else t.cal.detected } }

/-- R107-R113, R115, R116, R31: a DETECT completes whatever the environment answers, if `2 * CAL_MAX + 2` exchanges complete:
its trace is that of R113, its scan stops at the first pair equal to the sentinel or after `CAL_MAX` pairs, `ECHO` is the last
scan pair, and `CAL`, `CAL_OK` and the result are those of R111 or R112. It ends idle with `cs_n` high. -/
def Obligations.DetectCompletes : Prop :=
  ∀ (s : State) (e : Nibble), s.ready → s.undisturbed → s.params.legal = true →
    s.completesAtLeast (2 * s.params.calMax + 2) →
    ∃ (t : State) (r last : Frame) (scans : List Frame),
      exec (.detect e) s = .next t ∧
      1 ≤ scans.length ∧ scans.length ≤ s.params.calMax ∧ scans.getLast? = some last ∧
      (∀ f ∈ scans.dropLast, f ≠ sentinelFrame s.params) ∧
      (last ≠ sentinelFrame s.params → scans.length = s.params.calMax) ∧
      t.trace = s.trace ++ detectTrace s.params r scans ∧
      t.echo = { cmd := last.1, data := last.2 } ∧
      t.cal.expected = e ∧
      t.cal.detected.toNat = (if last = sentinelFrame s.params then scans.length else 0) ∧
      t.status = { busy := false, done := true, overrun := false,
                   pass := decide (last = sentinelFrame s.params ∧ scans.length = e.toNat)
                   calOk := decide (last = sentinelFrame s.params ∧ scans.length = e.toNat)
                   kind := if last = sentinelFrame s.params then (if scans.length = e.toNat then .ok else .lengthMismatch)
                           else .notFound } ∧
      t.csN = .high ∧ t.engine.fsm = .idle ∧ t.params = s.params ∧ t.port = s.port ∧ t.reads = s.reads ∧
      t.shift.setup = s.shift.setup

/-- R115, R154: the counts of a DETECT: `2k + 2` byte exchanges when it matches at `k`, `2 * CAL_MAX + 2` when it does not,
and two CS edges. -/
def Obligations.DetectEventCounts : Prop :=
  ∀ (s : State) (e : Nibble), s.ready → s.undisturbed → s.params.legal = true →
    s.completesAtLeast (2 * s.params.calMax + 2) →
    ∃ (t : State) (new : List BusEvent), exec (.detect e) s = .next t ∧ t.trace = s.trace ++ new ∧
      new.countP BusEvent.isXfer =
        2 * (if t.status.kind = .notFound then s.params.calMax else t.cal.detected.toNat) + 2 ∧
      new.count .csLow = 1 ∧ new.count .csHigh = 1 ∧ new.head? = some .csLow ∧ new.getLast? = some .csHigh ∧
      (t.status.kind ≠ .notFound → 1 ≤ t.cal.detected.toNat ∧ t.cal.detected.toNat ≤ s.params.calMax)

/-- R117: `E` is not validated: a DETECT with `E == 0` or `E > CAL_MAX` is accepted, and if it finishes, it finishes with
`LENGTH_MISMATCH` or `NOT_FOUND`. -/
def Obligations.DetectWithAnImpossibleCountNeverPasses : Prop :=
  ∀ (s : State) (e : Nibble), s.ready → s.undisturbed → s.params.legal = true →
    (e.toNat = 0 ∨ s.params.calMax < e.toNat) →
    ∃ t, exec (.detect e) s = .next t ∧
      (t.status.busy = false → t.status.done = true ∧ (t.status.kind = .lengthMismatch ∨ t.status.kind = .notFound)) ∧
      (s.completesAtLeast (2 * s.params.calMax + 2) → t.status.busy = false)

/-- The frame of DETECT on the engine's registers and the port: whatever lands in it but a reset, DETECT leaves `pos_q`,
`cmd_q`, `dat_q`, the parameters and the bring-up setup, and only adds bus events. -/
def Obligations.DetectLeavesTransactOperandsAlone : Prop :=
  ∀ (s t : State) (e : Nibble), s.ready → s.noReset → exec (.detect e) s = .next t →
    t.engine.posQ = s.engine.posQ ∧ t.engine.cmdQ = s.engine.cmdQ ∧ t.engine.datQ = s.engine.datQ ∧ t.engine.totQ = e ∧
      t.engine.opQ = .detect ∧ t.params = s.params ∧ t.shift.setup = s.shift.setup ∧ s.trace <+: t.trace

/-- R119, with the premise that R113, R54, R120 and TV-D9 give (stages 1 to M-1, log 15): on a reference chain of `M` boards
with `M <= CAL_MAX` and no sentinel in the stages that the scan returns, DETECT finds `M`, passes exactly when `E == M`, and
leaves the chain flushed; no output register changes but the no-op register. -/
def Obligations.DetectCountsTheBoards : Prop :=
  ∀ (s : State) (ch : Chain) (e : Nibble), s.ready → s.undisturbed → s.params.legal = true → s.env = .reference ch → ch.wf →
    ch.depth ≤ s.params.calMax → (∀ j f, 1 ≤ j → j < ch.depth → ch.stage j = some f → f ≠ sentinelFrame s.params) →
    s.completesAtLeast (2 * ch.depth + 2) →
    ∃ (t : State) (ch' : Chain), exec (.detect e) s = .next t ∧ t.env = .reference ch' ∧ t.cal.detected.toNat = ch.depth ∧
      t.cal.expected = e ∧ (t.status.kind = if e.toNat = ch.depth then .ok else .lengthMismatch) ∧
      (t.status.calOk = decide (e.toNat = ch.depth)) ∧ ch'.flushed s.params = true ∧
      (∀ (b : Nat) (r : Byte), r ≠ s.params.nopCmd → ch'.out.read (outAddr b r) = ch.out.read (outAddr b r))

/-- R120: a stale sentinel in stage `j`, none in a stage between it and the top that the scan returns earlier: DETECT matches
early at `M - j` if that is within the bound, and its final latch leaves the injected sentinel in board `M - j + 1`. -/
def Obligations.DetectMatchesAStaleSentinelEarly : Prop :=
  ∀ (s : State) (ch : Chain) (e : Nibble) (j : Nat), s.ready → s.undisturbed → s.params.legal = true →
    s.env = .reference ch → ch.wf → 1 ≤ j → j < ch.depth → ch.stage j = some (sentinelFrame s.params) →
    (∀ i f, j < i → i < ch.depth → ch.stage i = some f → f ≠ sentinelFrame s.params) → ch.depth - j ≤ s.params.calMax →
    s.completesAtLeast (2 * (ch.depth - j) + 2) →
    ∃ (t : State) (ch' : Chain), exec (.detect e) s = .next t ∧ t.env = .reference ch' ∧
      t.cal.detected.toNat = ch.depth - j ∧ (t.status.kind = if e.toNat = ch.depth - j then .ok else .lengthMismatch) ∧
      ch'.stage (ch.depth - j + 1) = some (sentinelFrame s.params) ∧
      ch'.out.read (outAddr (ch.depth - j + 1) s.params.sentinelCmd) = some s.params.sentinelData

/-- R121: on a reference chain longer than the bound, with no stale sentinel in a stage the scan returns, DETECT ends
`NOT_FOUND` and its final latch leaves the sentinel in board `CAL_MAX + 1`. -/
def Obligations.DetectOnATooLongChainIsNotFound : Prop :=
  ∀ (s : State) (ch : Chain) (e : Nibble), s.ready → s.undisturbed → s.params.legal = true → s.env = .reference ch → ch.wf →
    s.params.calMax < ch.depth →
    (∀ j f, ch.depth - s.params.calMax ≤ j → j < ch.depth → ch.stage j = some f → f ≠ sentinelFrame s.params) →
    s.completesAtLeast (2 * s.params.calMax + 2) →
    ∃ (t : State) (ch' : Chain), exec (.detect e) s = .next t ∧ t.env = .reference ch' ∧ t.status.kind = .notFound ∧
      t.cal.detected = 0#4 ∧ t.cal.expected = e ∧ t.status.calOk = false ∧
      ch'.out.read (outAddr (s.params.calMax + 1) s.params.sentinelCmd) = some s.params.sentinelData

/-! ### Stalls, interleaving and whole-machine rules -/

/-- R151: while the running operation waits for an exchange that never completes, it waits for ever: any number of steps with
nothing at the port leaves `BUSY == 1`, `cs_n == 0` and everything else as it is. -/
def Obligations.StalledExchangeHangsForEver : Prop :=
  ∀ (s : State) (k : Nat), s.status.busy = true → s.csN = .low → s.engine.fsm.exchanges = true → s.port = [] →
    s.shift.completes = some 0 → (s.engine.fsm = .tLead ∨ s.engine.fsm = .tTrail → s.engine.cnt ≠ 0#4) →
    (s.engine.fsm = .dScan → s.engine.half = .data ∨ s.engine.cnt.toNat < s.params.calMax) →
    Host.Core.run Sys2Proof.core k s = .next s

/-- R151, R155: an operation begun on a ready framer, with nothing landing in it, either ends with a result and `cs_n` high or
hangs, `BUSY` and with `cs_n` low, at an exchange that never completes: there is no other way out. -/
def Obligations.EveryOperationEndsOrHangsAtAnExchange : Prop :=
  ∀ (s : State) (i : Instr), s.ready → s.engine.fsm = .idle → s.csN = .high → s.undisturbed → s.params.legal = true →
    ∃ t, exec i s = .next t ∧
      ((t.status.busy = false ∧ t.status.done = true ∧ t.engine.fsm = .idle ∧ t.csN = .high) ∨
        (t.status.busy = true ∧ t.status.done = false ∧ t.csN = .low ∧ t.engine.fsm.exchanges = true ∧
          t.shift.completes = some 0 ∧ engineStep t = none))

/-- R76, R61, R65: what the host does at its port while an operation runs changes nothing of it: with any list of accesses of
the interface, waits and engine moves landing in it, the operation makes the same bus trace, gets the same answers and
leaves the same registers as with none, `OVERRUN` apart. -/
def Obligations.HostAccessesDoNotDisturbTheRunningOperation : Prop :=
  ∀ (s : State) (i : Instr) (es : List PortEvent), s.ready → s.params.legal = true →
    (∀ e ∈ es, PortEvent.harmless e = true) →
    ∃ t u, exec i { s with port := es } = .next t ∧ exec i { s with port := [] } = .next u ∧ t.forgetHost = u.forgetHost

/-- R41: the internal registers that reset leaves unspecified are not read while `IDLE`: two idle states that differ in them
only answer every step alike, but for those registers. Log 5's choice of their reset values is thus never observed. -/
def Obligations.UnspecifiedRegistersAreNotRead : Prop :=
  ∀ (s : State) (e : Engine), s.status.busy = false → s.engine.fsm = .idle → s.engine.half = .cmd → e.fsm = .idle →
    e.half = .cmd →
    viewOutcome State.forgetRegisters (step s) = viewOutcome State.forgetRegisters (step { s with engine := e })

/-- R17, R94, R114: the two grains agree: what an instruction does to a ready framer is what so many single steps do, one
engine move or port event each, from the state in which its operands are latched. -/
def Obligations.OperationIsTheRunOfItsSteps : Prop :=
  ∀ (s : State), s.ready →
    (∀ (p n : Nibble) (c d : Byte), 1 ≤ p.toNat → p.toNat ≤ n.toNat →
      ∃ (k : Nat) (t : State), exec (.transact p n c d) s = .next t ∧
        Host.Core.run Sys2Proof.core k (setBusy (latchTransact p n c d (accept s))) = .next t) ∧
    (∀ e : Nibble, ∃ (k : Nat) (t : State), exec (.detect e) s = .next t ∧
        Host.Core.run Sys2Proof.core k (setBusy (latchDetect e (accept s))) = .next t)

/-- The invariant at reset. -/
def Obligations.ResetStateMeetsTheInvariant : Prop := State.reset.Inv

/-- R26, R27, R28, R31, R36, R51, R52, R94: every step keeps the invariant, from every state that meets it. -/
def Obligations.StepKeepsTheInvariant : Prop := ∀ s t : State, s.Inv → step s = .next t → t.Inv

/-- R51, R36, R63: whatever a step does, short of a reset in it (its own event, or one that lands in the operation it runs), its
bus events are framed: every byte is exchanged while `cs_n` is low, every CS edge changes the level, and the level after the
events is that of `cs_n`. -/
def Obligations.ExchangesHappenOnlyWhileChipSelectIsLow : Prop :=
  ∀ s t : State, s.Inv → (∀ rest, s.port ≠ .reset :: rest) → (∀ width v rest, s.port = .write 0 width v :: rest → s.noReset) →
    step s = .next t →
    ∃ new, t.trace = s.trace ++ new ∧ framed s.csN new = some t.csN

/-- R8: no step changes the parameters. -/
def Obligations.ParametersNeverChange : Prop := ∀ s t : State, step s = .next t → t.params = s.params

/-- R29: nothing but a command word or a reset changes `OVERRUN`: a step whose port event is neither leaves it, whatever is
queued behind. -/
def Obligations.OverrunChangesOnlyByCommandsAndReset : Prop :=
  ∀ s t : State, step s = .next t →
    (∀ width v rest, s.port ≠ .write 0 width v :: rest) → (∀ rest, s.port ≠ .reset :: rest) →
    t.status.overrun = s.status.overrun

/-- R125: the framer raises no fault; and a step on an accepted or dropped command never refuses it after bring-up. -/
def Obligations.CommandsNeitherFaultNorAreRefused : Prop :=
  ∀ (s : State) (rest : List PortEvent) (w : Word), s.shift.setup.isSome = true → s.port = .write 0 4 w :: rest →
    ∃ t, step s = .next t

/-- R48, R49: on the wire a frame is its command byte and then its data byte, each most significant bit first, in both
directions. -/
def Obligations.FrameBitsGoOutMsbFirst : Prop :=
  ∀ (f r : Frame),
    ((pairEvents f r).flatMap BusEvent.wireBits).map Prod.fst =
      [f.1.getLsbD 7, f.1.getLsbD 6, f.1.getLsbD 5, f.1.getLsbD 4, f.1.getLsbD 3, f.1.getLsbD 2, f.1.getLsbD 1, f.1.getLsbD 0,
       f.2.getLsbD 7, f.2.getLsbD 6, f.2.getLsbD 5, f.2.getLsbD 4, f.2.getLsbD 3, f.2.getLsbD 2, f.2.getLsbD 1, f.2.getLsbD 0] ∧
    ((pairEvents f r).flatMap BusEvent.wireBits).map Prod.snd =
      [r.1.getLsbD 7, r.1.getLsbD 6, r.1.getLsbD 5, r.1.getLsbD 4, r.1.getLsbD 3, r.1.getLsbD 2, r.1.getLsbD 1, r.1.getLsbD 0,
       r.2.getLsbD 7, r.2.getLsbD 6, r.2.getLsbD 5, r.2.getLsbD 4, r.2.getLsbD 3, r.2.getLsbD 2, r.2.getLsbD 1, r.2.getLsbD 0]
end

