-- ==== Sys2Proof/Laws/State.lean ====
section
/-! SUPPORT. What each named update of the state does to each field, one lemma a field, so that no proof unfolds a record
update. -/

namespace Sys2Proof.Machine

@[simp] theorem accept_params (s : State) : (accept s).params = s.params := rfl
@[simp] theorem accept_status (s : State) : (accept s).status = s.status.accept := rfl
@[simp] theorem accept_echo (s : State) : (accept s).echo = s.echo := rfl
@[simp] theorem accept_cal (s : State) : (accept s).cal = s.cal := rfl
@[simp] theorem accept_csN (s : State) : (accept s).csN = s.csN := rfl
@[simp] theorem accept_engine (s : State) : (accept s).engine = s.engine := rfl
@[simp] theorem accept_shift (s : State) : (accept s).shift = s.shift := rfl
@[simp] theorem accept_env (s : State) : (accept s).env = s.env := rfl
@[simp] theorem accept_trace (s : State) : (accept s).trace = s.trace := rfl
@[simp] theorem accept_port (s : State) : (accept s).port = s.port := rfl
@[simp] theorem accept_reads (s : State) : (accept s).reads = s.reads := rfl
@[simp] theorem accept_rxDraws (s : State) : (accept s).rxDraws = s.rxDraws := rfl
@[simp] theorem accept_readDraws (s : State) : (accept s).readDraws = s.readDraws := rfl

@[simp] theorem finish_params (k : Kind) (s : State) : (finish k s).params = s.params := rfl
@[simp] theorem finish_status (k : Kind) (s : State) : (finish k s).status = s.status.finish k := rfl
@[simp] theorem finish_echo (k : Kind) (s : State) : (finish k s).echo = s.echo := rfl
@[simp] theorem finish_cal (k : Kind) (s : State) : (finish k s).cal = s.cal := rfl
@[simp] theorem finish_csN (k : Kind) (s : State) : (finish k s).csN = s.csN := rfl
@[simp] theorem finish_engine (k : Kind) (s : State) : (finish k s).engine = s.engine := rfl
@[simp] theorem finish_shift (k : Kind) (s : State) : (finish k s).shift = s.shift := rfl
@[simp] theorem finish_env (k : Kind) (s : State) : (finish k s).env = s.env := rfl
@[simp] theorem finish_trace (k : Kind) (s : State) : (finish k s).trace = s.trace := rfl
@[simp] theorem finish_port (k : Kind) (s : State) : (finish k s).port = s.port := rfl
@[simp] theorem finish_reads (k : Kind) (s : State) : (finish k s).reads = s.reads := rfl
@[simp] theorem finish_rxDraws (k : Kind) (s : State) : (finish k s).rxDraws = s.rxDraws := rfl
@[simp] theorem finish_readDraws (k : Kind) (s : State) : (finish k s).readDraws = s.readDraws := rfl

@[simp] theorem setBusy_params (s : State) : (setBusy s).params = s.params := rfl
@[simp] theorem setBusy_status (s : State) : (setBusy s).status = { s.status with busy := true } := rfl
@[simp] theorem setBusy_echo (s : State) : (setBusy s).echo = s.echo := rfl
@[simp] theorem setBusy_cal (s : State) : (setBusy s).cal = s.cal := rfl
@[simp] theorem setBusy_csN (s : State) : (setBusy s).csN = s.csN := rfl
@[simp] theorem setBusy_engine (s : State) : (setBusy s).engine = s.engine := rfl
@[simp] theorem setBusy_shift (s : State) : (setBusy s).shift = s.shift := rfl
@[simp] theorem setBusy_env (s : State) : (setBusy s).env = s.env := rfl
@[simp] theorem setBusy_trace (s : State) : (setBusy s).trace = s.trace := rfl
@[simp] theorem setBusy_port (s : State) : (setBusy s).port = s.port := rfl
@[simp] theorem setBusy_reads (s : State) : (setBusy s).reads = s.reads := rfl
@[simp] theorem setBusy_rxDraws (s : State) : (setBusy s).rxDraws = s.rxDraws := rfl
@[simp] theorem setBusy_readDraws (s : State) : (setBusy s).readDraws = s.readDraws := rfl

@[simp] theorem dropCommand_params (s : State) : (dropCommand s).params = s.params := rfl
@[simp] theorem dropCommand_status (s : State) : (dropCommand s).status = { s.status with overrun := true } := rfl
@[simp] theorem dropCommand_echo (s : State) : (dropCommand s).echo = s.echo := rfl
@[simp] theorem dropCommand_cal (s : State) : (dropCommand s).cal = s.cal := rfl
@[simp] theorem dropCommand_csN (s : State) : (dropCommand s).csN = s.csN := rfl
@[simp] theorem dropCommand_engine (s : State) : (dropCommand s).engine = s.engine := rfl
@[simp] theorem dropCommand_shift (s : State) : (dropCommand s).shift = s.shift := rfl
@[simp] theorem dropCommand_env (s : State) : (dropCommand s).env = s.env := rfl
@[simp] theorem dropCommand_trace (s : State) : (dropCommand s).trace = s.trace := rfl
@[simp] theorem dropCommand_port (s : State) : (dropCommand s).port = s.port := rfl
@[simp] theorem dropCommand_reads (s : State) : (dropCommand s).reads = s.reads := rfl
@[simp] theorem dropCommand_rxDraws (s : State) : (dropCommand s).rxDraws = s.rxDraws := rfl
@[simp] theorem dropCommand_readDraws (s : State) : (dropCommand s).readDraws = s.readDraws := rfl

@[simp] theorem setCalOk_params (b : Bool) (s : State) : (setCalOk b s).params = s.params := rfl
@[simp] theorem setCalOk_status (b : Bool) (s : State) : (setCalOk b s).status = { s.status with calOk := b } := rfl
@[simp] theorem setCalOk_echo (b : Bool) (s : State) : (setCalOk b s).echo = s.echo := rfl
@[simp] theorem setCalOk_cal (b : Bool) (s : State) : (setCalOk b s).cal = s.cal := rfl
@[simp] theorem setCalOk_csN (b : Bool) (s : State) : (setCalOk b s).csN = s.csN := rfl
@[simp] theorem setCalOk_engine (b : Bool) (s : State) : (setCalOk b s).engine = s.engine := rfl
@[simp] theorem setCalOk_shift (b : Bool) (s : State) : (setCalOk b s).shift = s.shift := rfl
@[simp] theorem setCalOk_env (b : Bool) (s : State) : (setCalOk b s).env = s.env := rfl
@[simp] theorem setCalOk_trace (b : Bool) (s : State) : (setCalOk b s).trace = s.trace := rfl
@[simp] theorem setCalOk_port (b : Bool) (s : State) : (setCalOk b s).port = s.port := rfl
@[simp] theorem setCalOk_reads (b : Bool) (s : State) : (setCalOk b s).reads = s.reads := rfl
@[simp] theorem setCalOk_rxDraws (b : Bool) (s : State) : (setCalOk b s).rxDraws = s.rxDraws := rfl
@[simp] theorem setCalOk_readDraws (b : Bool) (s : State) : (setCalOk b s).readDraws = s.readDraws := rfl

@[simp] theorem latchTransact_params (p n : Nibble) (c d : Byte) (s : State) : (latchTransact p n c d s).params = s.params := rfl
@[simp] theorem latchTransact_status (p n : Nibble) (c d : Byte) (s : State) : (latchTransact p n c d s).status = s.status := rfl
@[simp] theorem latchTransact_echo (p n : Nibble) (c d : Byte) (s : State) : (latchTransact p n c d s).echo = s.echo := rfl
@[simp] theorem latchTransact_cal (p n : Nibble) (c d : Byte) (s : State) : (latchTransact p n c d s).cal = s.cal := rfl
@[simp] theorem latchTransact_csN (p n : Nibble) (c d : Byte) (s : State) : (latchTransact p n c d s).csN = s.csN := rfl
@[simp] theorem latchTransact_engine (p n : Nibble) (c d : Byte) (s : State) : (latchTransact p n c d s).engine = { s.engine with fsm := .tStart, half := .cmd, opQ := .transact, posQ := p, totQ := n, cmdQ := c, datQ := d } := rfl
@[simp] theorem latchTransact_shift (p n : Nibble) (c d : Byte) (s : State) : (latchTransact p n c d s).shift = s.shift := rfl
@[simp] theorem latchTransact_env (p n : Nibble) (c d : Byte) (s : State) : (latchTransact p n c d s).env = s.env := rfl
@[simp] theorem latchTransact_trace (p n : Nibble) (c d : Byte) (s : State) : (latchTransact p n c d s).trace = s.trace := rfl
@[simp] theorem latchTransact_port (p n : Nibble) (c d : Byte) (s : State) : (latchTransact p n c d s).port = s.port := rfl
@[simp] theorem latchTransact_reads (p n : Nibble) (c d : Byte) (s : State) : (latchTransact p n c d s).reads = s.reads := rfl
@[simp] theorem latchTransact_rxDraws (p n : Nibble) (c d : Byte) (s : State) : (latchTransact p n c d s).rxDraws = s.rxDraws := rfl
@[simp] theorem latchTransact_readDraws (p n : Nibble) (c d : Byte) (s : State) : (latchTransact p n c d s).readDraws = s.readDraws := rfl

@[simp] theorem latchDetect_params (e : Nibble) (s : State) : (latchDetect e s).params = s.params := rfl
@[simp] theorem latchDetect_status (e : Nibble) (s : State) : (latchDetect e s).status = s.status := rfl
@[simp] theorem latchDetect_echo (e : Nibble) (s : State) : (latchDetect e s).echo = s.echo := rfl
@[simp] theorem latchDetect_cal (e : Nibble) (s : State) : (latchDetect e s).cal = s.cal := rfl
@[simp] theorem latchDetect_csN (e : Nibble) (s : State) : (latchDetect e s).csN = s.csN := rfl
@[simp] theorem latchDetect_engine (e : Nibble) (s : State) : (latchDetect e s).engine = { s.engine with fsm := .dStart, half := .cmd, opQ := .detect, totQ := e } := rfl
@[simp] theorem latchDetect_shift (e : Nibble) (s : State) : (latchDetect e s).shift = s.shift := rfl
@[simp] theorem latchDetect_env (e : Nibble) (s : State) : (latchDetect e s).env = s.env := rfl
@[simp] theorem latchDetect_trace (e : Nibble) (s : State) : (latchDetect e s).trace = s.trace := rfl
@[simp] theorem latchDetect_port (e : Nibble) (s : State) : (latchDetect e s).port = s.port := rfl
@[simp] theorem latchDetect_reads (e : Nibble) (s : State) : (latchDetect e s).reads = s.reads := rfl
@[simp] theorem latchDetect_rxDraws (e : Nibble) (s : State) : (latchDetect e s).rxDraws = s.rxDraws := rfl
@[simp] theorem latchDetect_readDraws (e : Nibble) (s : State) : (latchDetect e s).readDraws = s.readDraws := rfl

@[simp] theorem csLow_params (s : State) : (csLow s).params = s.params := rfl
@[simp] theorem csLow_status (s : State) : (csLow s).status = s.status := rfl
@[simp] theorem csLow_echo (s : State) : (csLow s).echo = s.echo := rfl
@[simp] theorem csLow_cal (s : State) : (csLow s).cal = s.cal := rfl
@[simp] theorem csLow_csN (s : State) : (csLow s).csN = .low := rfl
@[simp] theorem csLow_engine (s : State) : (csLow s).engine = s.engine := rfl
@[simp] theorem csLow_shift (s : State) : (csLow s).shift = s.shift := rfl
@[simp] theorem csLow_env (s : State) : (csLow s).env = s.env := rfl
@[simp] theorem csLow_trace (s : State) : (csLow s).trace = s.trace ++ [.csLow] := rfl
@[simp] theorem csLow_port (s : State) : (csLow s).port = s.port := rfl
@[simp] theorem csLow_reads (s : State) : (csLow s).reads = s.reads := rfl
@[simp] theorem csLow_rxDraws (s : State) : (csLow s).rxDraws = s.rxDraws := rfl
@[simp] theorem csLow_readDraws (s : State) : (csLow s).readDraws = s.readDraws := rfl

@[simp] theorem csHigh_params (s : State) : (csHigh s).params = s.params := rfl
@[simp] theorem csHigh_status (s : State) : (csHigh s).status = s.status := rfl
@[simp] theorem csHigh_echo (s : State) : (csHigh s).echo = s.echo := rfl
@[simp] theorem csHigh_cal (s : State) : (csHigh s).cal = s.cal := rfl
@[simp] theorem csHigh_csN (s : State) : (csHigh s).csN = .high := rfl
@[simp] theorem csHigh_engine (s : State) : (csHigh s).engine = s.engine := rfl
@[simp] theorem csHigh_shift (s : State) : (csHigh s).shift = s.shift := rfl
@[simp] theorem csHigh_env (s : State) : (csHigh s).env = if s.csN = .low then s.env.rise else s.env := rfl
@[simp] theorem csHigh_trace (s : State) : (csHigh s).trace = s.trace ++ [.csHigh] := rfl
@[simp] theorem csHigh_port (s : State) : (csHigh s).port = s.port := rfl
@[simp] theorem csHigh_reads (s : State) : (csHigh s).reads = s.reads := rfl
@[simp] theorem csHigh_rxDraws (s : State) : (csHigh s).rxDraws = s.rxDraws := rfl
@[simp] theorem csHigh_readDraws (s : State) : (csHigh s).readDraws = s.readDraws := rfl

@[simp] theorem capture_params (f : Frame) (s : State) : (capture f s).params = s.params := rfl
@[simp] theorem capture_status (f : Frame) (s : State) : (capture f s).status = s.status := rfl
@[simp] theorem capture_echo (f : Frame) (s : State) : (capture f s).echo = { cmd := f.1, data := f.2 } := rfl
@[simp] theorem capture_cal (f : Frame) (s : State) : (capture f s).cal = s.cal := rfl
@[simp] theorem capture_csN (f : Frame) (s : State) : (capture f s).csN = s.csN := rfl
@[simp] theorem capture_engine (f : Frame) (s : State) : (capture f s).engine = s.engine := rfl
@[simp] theorem capture_shift (f : Frame) (s : State) : (capture f s).shift = s.shift := rfl
@[simp] theorem capture_env (f : Frame) (s : State) : (capture f s).env = s.env := rfl
@[simp] theorem capture_trace (f : Frame) (s : State) : (capture f s).trace = s.trace := rfl
@[simp] theorem capture_port (f : Frame) (s : State) : (capture f s).port = s.port := rfl
@[simp] theorem capture_reads (f : Frame) (s : State) : (capture f s).reads = s.reads := rfl
@[simp] theorem capture_rxDraws (f : Frame) (s : State) : (capture f s).rxDraws = s.rxDraws := rfl
@[simp] theorem capture_readDraws (f : Frame) (s : State) : (capture f s).readDraws = s.readDraws := rfl

@[simp] theorem goto_params (q : Fsm) (s : State) : (goto q s).params = s.params := rfl
@[simp] theorem goto_status (q : Fsm) (s : State) : (goto q s).status = s.status := rfl
@[simp] theorem goto_echo (q : Fsm) (s : State) : (goto q s).echo = s.echo := rfl
@[simp] theorem goto_cal (q : Fsm) (s : State) : (goto q s).cal = s.cal := rfl
@[simp] theorem goto_csN (q : Fsm) (s : State) : (goto q s).csN = s.csN := rfl
@[simp] theorem goto_engine (q : Fsm) (s : State) : (goto q s).engine = { s.engine with fsm := q } := rfl
@[simp] theorem goto_shift (q : Fsm) (s : State) : (goto q s).shift = s.shift := rfl
@[simp] theorem goto_env (q : Fsm) (s : State) : (goto q s).env = s.env := rfl
@[simp] theorem goto_trace (q : Fsm) (s : State) : (goto q s).trace = s.trace := rfl
@[simp] theorem goto_port (q : Fsm) (s : State) : (goto q s).port = s.port := rfl
@[simp] theorem goto_reads (q : Fsm) (s : State) : (goto q s).reads = s.reads := rfl
@[simp] theorem goto_rxDraws (q : Fsm) (s : State) : (goto q s).rxDraws = s.rxDraws := rfl
@[simp] theorem goto_readDraws (q : Fsm) (s : State) : (goto q s).readDraws = s.readDraws := rfl

@[simp] theorem setCnt_params (k : Nibble) (s : State) : (setCnt k s).params = s.params := rfl
@[simp] theorem setCnt_status (k : Nibble) (s : State) : (setCnt k s).status = s.status := rfl
@[simp] theorem setCnt_echo (k : Nibble) (s : State) : (setCnt k s).echo = s.echo := rfl
@[simp] theorem setCnt_cal (k : Nibble) (s : State) : (setCnt k s).cal = s.cal := rfl
@[simp] theorem setCnt_csN (k : Nibble) (s : State) : (setCnt k s).csN = s.csN := rfl
@[simp] theorem setCnt_engine (k : Nibble) (s : State) : (setCnt k s).engine = { s.engine with cnt := k } := rfl
@[simp] theorem setCnt_shift (k : Nibble) (s : State) : (setCnt k s).shift = s.shift := rfl
@[simp] theorem setCnt_env (k : Nibble) (s : State) : (setCnt k s).env = s.env := rfl
@[simp] theorem setCnt_trace (k : Nibble) (s : State) : (setCnt k s).trace = s.trace := rfl
@[simp] theorem setCnt_port (k : Nibble) (s : State) : (setCnt k s).port = s.port := rfl
@[simp] theorem setCnt_reads (k : Nibble) (s : State) : (setCnt k s).reads = s.reads := rfl
@[simp] theorem setCnt_rxDraws (k : Nibble) (s : State) : (setCnt k s).rxDraws = s.rxDraws := rfl
@[simp] theorem setCnt_readDraws (k : Nibble) (s : State) : (setCnt k s).readDraws = s.readDraws := rfl

@[simp] theorem holdFirst_params (rx : Byte) (s : State) : (holdFirst rx s).params = s.params := rfl
@[simp] theorem holdFirst_status (rx : Byte) (s : State) : (holdFirst rx s).status = s.status := rfl
@[simp] theorem holdFirst_echo (rx : Byte) (s : State) : (holdFirst rx s).echo = s.echo := rfl
@[simp] theorem holdFirst_cal (rx : Byte) (s : State) : (holdFirst rx s).cal = s.cal := rfl
@[simp] theorem holdFirst_csN (rx : Byte) (s : State) : (holdFirst rx s).csN = s.csN := rfl
@[simp] theorem holdFirst_engine (rx : Byte) (s : State) : (holdFirst rx s).engine = { s.engine with half := .data, rxHold := rx } := rfl
@[simp] theorem holdFirst_shift (rx : Byte) (s : State) : (holdFirst rx s).shift = s.shift := rfl
@[simp] theorem holdFirst_env (rx : Byte) (s : State) : (holdFirst rx s).env = s.env := rfl
@[simp] theorem holdFirst_trace (rx : Byte) (s : State) : (holdFirst rx s).trace = s.trace := rfl
@[simp] theorem holdFirst_port (rx : Byte) (s : State) : (holdFirst rx s).port = s.port := rfl
@[simp] theorem holdFirst_reads (rx : Byte) (s : State) : (holdFirst rx s).reads = s.reads := rfl
@[simp] theorem holdFirst_rxDraws (rx : Byte) (s : State) : (holdFirst rx s).rxDraws = s.rxDraws := rfl
@[simp] theorem holdFirst_readDraws (rx : Byte) (s : State) : (holdFirst rx s).readDraws = s.readDraws := rfl

@[simp] theorem pairDone_params (s : State) : (pairDone s).params = s.params := rfl
@[simp] theorem pairDone_status (s : State) : (pairDone s).status = s.status := rfl
@[simp] theorem pairDone_echo (s : State) : (pairDone s).echo = s.echo := rfl
@[simp] theorem pairDone_cal (s : State) : (pairDone s).cal = s.cal := rfl
@[simp] theorem pairDone_csN (s : State) : (pairDone s).csN = s.csN := rfl
@[simp] theorem pairDone_engine (s : State) : (pairDone s).engine = { s.engine with half := .cmd } := rfl
@[simp] theorem pairDone_shift (s : State) : (pairDone s).shift = s.shift := rfl
@[simp] theorem pairDone_env (s : State) : (pairDone s).env = s.env := rfl
@[simp] theorem pairDone_trace (s : State) : (pairDone s).trace = s.trace := rfl
@[simp] theorem pairDone_port (s : State) : (pairDone s).port = s.port := rfl
@[simp] theorem pairDone_reads (s : State) : (pairDone s).reads = s.reads := rfl
@[simp] theorem pairDone_rxDraws (s : State) : (pairDone s).rxDraws = s.rxDraws := rfl
@[simp] theorem pairDone_readDraws (s : State) : (pairDone s).readDraws = s.readDraws := rfl

@[simp] theorem setCal_params (k e : Nibble) (s : State) : (setCal k e s).params = s.params := rfl
@[simp] theorem setCal_status (k e : Nibble) (s : State) : (setCal k e s).status = s.status := rfl
@[simp] theorem setCal_echo (k e : Nibble) (s : State) : (setCal k e s).echo = s.echo := rfl
@[simp] theorem setCal_cal (k e : Nibble) (s : State) : (setCal k e s).cal = { detected := k, expected := e } := rfl
@[simp] theorem setCal_csN (k e : Nibble) (s : State) : (setCal k e s).csN = s.csN := rfl
@[simp] theorem setCal_engine (k e : Nibble) (s : State) : (setCal k e s).engine = s.engine := rfl
@[simp] theorem setCal_shift (k e : Nibble) (s : State) : (setCal k e s).shift = s.shift := rfl
@[simp] theorem setCal_env (k e : Nibble) (s : State) : (setCal k e s).env = s.env := rfl
@[simp] theorem setCal_trace (k e : Nibble) (s : State) : (setCal k e s).trace = s.trace := rfl
@[simp] theorem setCal_port (k e : Nibble) (s : State) : (setCal k e s).port = s.port := rfl
@[simp] theorem setCal_reads (k e : Nibble) (s : State) : (setCal k e s).reads = s.reads := rfl
@[simp] theorem setCal_rxDraws (k e : Nibble) (s : State) : (setCal k e s).rxDraws = s.rxDraws := rfl
@[simp] theorem setCal_readDraws (k e : Nibble) (s : State) : (setCal k e s).readDraws = s.readDraws := rfl

@[simp] theorem hostRead_params (off : Nat) (s : State) : (hostRead off s).params = s.params := rfl
@[simp] theorem hostRead_status (off : Nat) (s : State) : (hostRead off s).status = s.status := rfl
@[simp] theorem hostRead_echo (off : Nat) (s : State) : (hostRead off s).echo = s.echo := rfl
@[simp] theorem hostRead_cal (off : Nat) (s : State) : (hostRead off s).cal = s.cal := rfl
@[simp] theorem hostRead_csN (off : Nat) (s : State) : (hostRead off s).csN = s.csN := rfl
@[simp] theorem hostRead_engine (off : Nat) (s : State) : (hostRead off s).engine = s.engine := rfl
@[simp] theorem hostRead_shift (off : Nat) (s : State) : (hostRead off s).shift = s.shift := rfl
@[simp] theorem hostRead_env (off : Nat) (s : State) : (hostRead off s).env = s.env := rfl
@[simp] theorem hostRead_trace (off : Nat) (s : State) : (hostRead off s).trace = s.trace := rfl
@[simp] theorem hostRead_port (off : Nat) (s : State) : (hostRead off s).port = s.port := rfl
@[simp] theorem hostRead_reads (off : Nat) (s : State) : (hostRead off s).reads = s.reads ++ [(off, readValue off s)] := rfl
@[simp] theorem hostRead_rxDraws (off : Nat) (s : State) : (hostRead off s).rxDraws = s.rxDraws := rfl
@[simp] theorem hostRead_readDraws (off : Nat) (s : State) : (hostRead off s).readDraws = if readUnspecified off s then s.readDraws + 1 else s.readDraws := rfl

@[simp] theorem configureBus_params (s : State) : (configureBus s).params = s.params := rfl
@[simp] theorem configureBus_status (s : State) : (configureBus s).status = s.status := rfl
@[simp] theorem configureBus_echo (s : State) : (configureBus s).echo = s.echo := rfl
@[simp] theorem configureBus_cal (s : State) : (configureBus s).cal = s.cal := rfl
@[simp] theorem configureBus_csN (s : State) : (configureBus s).csN = s.csN := rfl
@[simp] theorem configureBus_engine (s : State) : (configureBus s).engine = s.engine := rfl
@[simp] theorem configureBus_shift (s : State) : (configureBus s).shift = { s.shift with setup := some s.params.busSetup } := rfl
@[simp] theorem configureBus_env (s : State) : (configureBus s).env = s.env := rfl
@[simp] theorem configureBus_trace (s : State) : (configureBus s).trace = s.trace := rfl
@[simp] theorem configureBus_port (s : State) : (configureBus s).port = s.port := rfl
@[simp] theorem configureBus_reads (s : State) : (configureBus s).reads = s.reads := rfl
@[simp] theorem configureBus_rxDraws (s : State) : (configureBus s).rxDraws = s.rxDraws := rfl
@[simp] theorem configureBus_readDraws (s : State) : (configureBus s).readDraws = s.readDraws := rfl

@[simp] theorem resetFramer_params (s : State) : (resetFramer s).params = s.params := rfl
@[simp] theorem resetFramer_status (s : State) : (resetFramer s).status = Status.reset := rfl
@[simp] theorem resetFramer_echo (s : State) : (resetFramer s).echo = Echo.reset := rfl
@[simp] theorem resetFramer_cal (s : State) : (resetFramer s).cal = Cal.reset := rfl
@[simp] theorem resetFramer_csN (s : State) : (resetFramer s).csN = .high := rfl
@[simp] theorem resetFramer_engine (s : State) : (resetFramer s).engine = Engine.reset := rfl
@[simp] theorem resetFramer_shift (s : State) : (resetFramer s).shift = { s.shift with completes := (s.shift.resumed s.rxDraws).1 } := rfl
@[simp] theorem resetFramer_env (s : State) : (resetFramer s).env = (if s.status.busy ∨ s.csN = .low then s.env.disturbed s.rxDraws else (s.env, 0)).1 := rfl
@[simp] theorem resetFramer_trace (s : State) : (resetFramer s).trace = s.trace := rfl
@[simp] theorem resetFramer_port (s : State) : (resetFramer s).port = s.port := rfl
@[simp] theorem resetFramer_reads (s : State) : (resetFramer s).reads = s.reads := rfl
@[simp] theorem resetFramer_rxDraws (s : State) : (resetFramer s).rxDraws = s.rxDraws + (if s.status.busy ∨ s.csN = .low then s.env.disturbed s.rxDraws else (s.env, 0)).2 + (s.shift.resumed s.rxDraws).2 := rfl
@[simp] theorem resetFramer_readDraws (s : State) : (resetFramer s).readDraws = s.readDraws := rfl

end Sys2Proof.Machine
end

