-- ==== Sys2Proof/Laws/Memory.lean ====
section
/-! SUPPORT. The laws of the boards' output registers: read after write, and every operation keeps the canonical form. -/

namespace Sys2Proof.Machine

theorem Memory.mem_write {m : Memory} {a : Nat} {v : Byte} {x : Host.Cell} (h : x ∈ m.write a v) : x = (a, v) ∨ x ∈ m := by
  induction m with
  | nil => simpa [Memory.write] using h
  | cons y m ih =>
    obtain ⟨k, w⟩ := y
    simp only [Memory.write] at h
    split at h
    · simpa using h
    · split at h
      · rcases List.mem_cons.1 h with h | h
        · exact .inl h
        · exact .inr (List.mem_cons_of_mem _ h)
      · rcases List.mem_cons.1 h with h | h
        · exact .inr (h ▸ List.mem_cons_self)
        · exact (ih h).imp id (List.mem_cons_of_mem _)

/-- A write keeps the addresses strictly rising. -/
theorem Memory.write_wf {m : Memory} (h : m.wf) (a : Nat) (v : Byte) : (m.write a v).wf := by
  induction m with
  | nil => simp [Memory.write, Memory.wf]
  | cons y m ih =>
    obtain ⟨k, w⟩ := y
    obtain ⟨hk, hm⟩ := List.pairwise_cons.1 h
    simp only [Memory.write]
    split
    · rename_i hlt
      refine List.pairwise_cons.2 ⟨fun x hx => ?_, h⟩
      rcases List.mem_cons.1 hx with rfl | hx
      · exact hlt
      · exact lt_trans hlt (hk x hx)
    · split
      · rename_i heq
        subst heq
        exact List.pairwise_cons.2 ⟨hk, hm⟩
      · refine List.pairwise_cons.2 ⟨fun x hx => ?_, ih hm⟩
        rcases Memory.mem_write hx with rfl | hx
        · change k < a
          omega
        · exact hk x hx

theorem Memory.read_eq_none_of_lt {m : Memory} {a : Nat} (h : ∀ x ∈ m, a < x.1) : m.read a = none := by
  induction m with
  | nil => rfl
  | cons y m ih =>
    obtain ⟨k, w⟩ := y
    have hk : a < k := h (k, w) List.mem_cons_self
    simp only [Memory.read, if_neg (Nat.ne_of_lt hk)]
    exact ih fun x hx => h x (List.mem_cons_of_mem _ hx)

/-- A read after a write to the same address gives the byte written. -/
theorem Memory.read_write_same (m : Memory) (a : Nat) (v : Byte) : (m.write a v).read a = some v := by
  induction m with
  | nil => simp [Memory.write, Memory.read]
  | cons y m ih =>
    obtain ⟨k, w⟩ := y
    simp only [Memory.write]
    split
    · simp [Memory.read]
    · split
      · simp [Memory.read]
      · rename_i h
        simpa [Memory.read, h] using ih

/-- A write leaves every other address alone. -/
theorem Memory.read_write_other (m : Memory) {a b : Nat} (v : Byte) (h : b ≠ a) : (m.write a v).read b = m.read b := by
  induction m with
  | nil => simp [Memory.write, Memory.read, h]
  | cons y m ih =>
    obtain ⟨k, w⟩ := y
    simp only [Memory.write]
    split
    · simp [Memory.read, h]
    · split
      · rename_i heq
        subst heq
        simp [Memory.read, h]
      · simp only [Memory.read, ih]

/-- Different boards, or different registers, have different addresses. -/
theorem outAddr_injective {b b' : Nat} {r r' : Byte} (h : outAddr b r = outAddr b' r') : b = b' ∧ r = r' := by
  have h1 := r.isLt
  have h2 := r'.isLt
  unfold outAddr at h
  refine ⟨by omega, BitVec.eq_of_toNat_eq (by omega)⟩

theorem latchFrom_wf {m : Memory} (h : m.wf) (b : Nat) (fs : List Frame) : (latchFrom b fs m).wf := by
  induction fs generalizing b m with
  | nil => exact h
  | cons f fs ih => exact ih (Memory.write_wf h _ _) _

/-- Latching the boards from `b` up leaves every address alone that is no latched board's register of its frame. -/
theorem latchFrom_read_other (m : Memory) (b a : Nat) (fs : List Frame)
    (h : ∀ k f, fs[k]? = some f → a ≠ outAddr (b + k) f.1) : (latchFrom b fs m).read a = m.read a := by
  induction fs generalizing b m with
  | nil => rfl
  | cons f fs ih =>
    have h0 : a ≠ outAddr b f.1 := by simpa using h 0 f rfl
    have hs : ∀ k g, fs[k]? = some g → a ≠ outAddr (b + 1 + k) g.1 := fun k g hk => by
      have := h (k + 1) g (by simpa using hk)
      rwa [show b + 1 + k = b + (k + 1) by omega]
    simp only [latchFrom]
    rw [ih _ _ hs, Memory.read_write_other _ _ h0]

/-- Latching the boards from `b` up leaves in each board's register of its frame the frame's data byte. -/
theorem latchFrom_read_latched (m : Memory) (b k : Nat) (fs : List Frame) (f : Frame) (h : fs[k]? = some f) :
    (latchFrom b fs m).read (outAddr (b + k) f.1) = some f.2 := by
  induction fs generalizing b m k with
  | nil => simp at h
  | cons g fs ih =>
    cases k with
    | zero =>
      obtain rfl : g = f := by simpa using h
      simp only [latchFrom, Nat.add_zero]
      rw [latchFrom_read_other, Memory.read_write_same]
      intro j f' _ heq
      have := (outAddr_injective heq).1
      omega
    | succ k =>
      simp only [latchFrom]
      rw [show b + (k + 1) = b + 1 + k by omega]
      exact ih _ _ _ (by simpa using h)

/-- A write to a register that exists adds none. -/
theorem Memory.write_addrs {m : Memory} (h : m.wf) {a : Nat} (ha : a ∈ m.map Prod.fst) (v : Byte) :
    (m.write a v).map Prod.fst = m.map Prod.fst := by
  induction m with
  | nil => simp at ha
  | cons y m ih =>
    obtain ⟨k, w⟩ := y
    obtain ⟨hk, hm⟩ := List.pairwise_cons.1 h
    simp only [Memory.write]
    by_cases heq : a = k
    · simp [heq]
    · have hin : a ∈ m.map Prod.fst := by simpa [heq] using ha
      obtain ⟨x, hx, rfl⟩ := List.mem_map.1 hin
      have hlt : ¬x.1 < k := Nat.not_lt.2 (hk x hx).le
      rw [if_neg hlt, if_neg heq, List.map_cons, List.map_cons, ih hm hin]

/-- A read gives a byte exactly at the addresses listed. -/
theorem Memory.read_isSome {m : Memory} {a : Nat} : (m.read a).isSome = true ↔ a ∈ m.map Prod.fst := by
  induction m with
  | nil => simp [Memory.read]
  | cons y m ih =>
    obtain ⟨k, w⟩ := y
    by_cases h : a = k <;> simp [Memory.read, h]
    simpa using ih

theorem Memory.read_map {l : List Nat} {a : Nat} (h : a ∈ l) (f : Nat → Byte) :
    Memory.read (l.map fun k => (k, f k)) a = some (f a) := by
  induction l with
  | nil => simp at h
  | cons k l ih =>
    by_cases heq : a = k
    · simp [Memory.read, heq]
    · simpa [Memory.read, heq] using ih (by simpa [heq] using h)

/-- The output registers are those of the boards `1..M` (R52). -/
theorem outAddr_mem_registerAddrs {depth b : Nat} {r : Byte} : outAddr b r ∈ registerAddrs depth ↔ 1 ≤ b ∧ b ≤ depth := by
  have := r.isLt
  simp only [registerAddrs, outAddr, List.mem_range'_1]
  omega

/-- The output registers of a well-formed chain are in canonical form. -/
theorem Chain.out_wf {ch : Chain} (h : ch.wf) : ch.out.wf := by
  have : (ch.out.map Prod.fst).Pairwise (· < ·) := h.2.2 ▸ List.pairwise_lt_range' (step := 1)
  exact List.pairwise_map.1 this

theorem stagesOf_length : ∀ {n : Nat} {q : List Byte}, q.length = 2 * n → (stagesOf q).length = n
  | 0, [], _ => rfl
  | n + 1, d :: c :: q, h => by simp [stagesOf, stagesOf_length (n := n) (q := q) (by simpa [Nat.mul_add] using h)]

/-- Latching boards of a chain adds no register. -/
theorem latchFrom_addrs {depth : Nat} {m : Memory} (h : m.wf) (hm : m.map Prod.fst = registerAddrs depth) (b : Nat)
    (hb : 1 ≤ b) (fs : List Frame) (hf : b + fs.length ≤ depth + 1) :
    (latchFrom b fs m).map Prod.fst = registerAddrs depth := by
  induction fs generalizing b m with
  | nil => exact hm
  | cons f fs ih =>
    simp only [List.length_cons] at hf
    have hin : outAddr b f.1 ∈ m.map Prod.fst := hm ▸ outAddr_mem_registerAddrs.2 ⟨hb, by omega⟩
    exact ih (Memory.write_wf h _ _) ((Memory.write_addrs h hin _).trans hm) _ (by omega) (by omega)

/-- The latch of every board keeps the chain well formed. -/
theorem Chain.latch_wf {ch : Chain} (h : ch.wf) : ch.latch.wf :=
  ⟨h.1, h.2.1, latchFrom_addrs (Chain.out_wf h) h.2.2 1 le_rfl _ (by rw [Chain.stages, stagesOf_length h.2.1]; omega)⟩

/-- A byte exchange keeps the chain well formed. -/
theorem Chain.exchange_wf {ch : Chain} (h : ch.wf) (tx : Byte) : (ch.exchange tx).2.wf := by
  refine ⟨h.1, ?_, h.2.2⟩
  simp [Chain.exchange, h.2.1]

/-- A chain of unspecified contents is a chain of the depth given. -/
theorem Chain.unspecified_wf (draw : Nat) {depth : Nat} (h : 1 ≤ depth) : (Chain.unspecified draw depth).wf := by
  refine ⟨h, ?_, ?_⟩ <;> simp [Chain.unspecified, Function.comp_def]

theorem Env.rise_wf {e : Env} (h : e.wf) : e.rise.wf := by
  cases e with
  | reference ch => exact Chain.latch_wf h
  | oracle rest => trivial

theorem Env.answer_wf {e : Env} (h : e.wf) (draw : Nat) (tx : Byte) : (e.answer draw tx).2.1.wf := by
  cases e with
  | reference ch => exact Chain.exchange_wf h tx
  | oracle rest => cases rest <;> trivial

theorem Env.disturbed_wf {e : Env} (h : e.wf) (draw : Nat) : (e.disturbed draw).1.wf := by
  cases e with
  | reference ch => exact Chain.unspecified_wf draw h.1
  | oracle rest => trivial

/-- The environment at power-up is well formed. -/
theorem Env.powerUp_wf : Env.powerUp.wf := by
  unfold Env.powerUp
  split
  · exact Chain.unspecified_wf 0 (Nat.succ_pos _)
  · trivial

/-- The output registers of a well-formed environment are in canonical form. -/
theorem Env.out_wf {e : Env} (h : e.wf) : e.out.wf := by
  cases e with
  | reference ch => exact Chain.out_wf h
  | oracle rest => exact List.Pairwise.nil

/-- The output registers of the machine after reset are in canonical form. -/
theorem reset_out_wf : State.reset.env.out.wf := Env.out_wf Env.powerUp_wf

end Sys2Proof.Machine
end

