-- ==== Sys2Proof/Laws/Bus.lean ====
section
/-! SUPPORT. One lemma for each bus operation and for each engine move that says all it can do. -/

namespace Sys2Proof.Machine

/-- All that one completed byte exchange does (R12): its guard, the byte received, and the whole state after it. -/
theorem xfer_eq_some {tx rx : Byte} {s t : State} (h : xfer tx s = some (rx, t)) :
    s.shift.completes ≠ some 0 ∧ rx = (s.env.answer s.rxDraws tx).1 ∧
      t = { s with
        shift := { s.shift with completes := s.shift.completes.map (fun k => k - 1) }
        env := (s.env.answer s.rxDraws tx).2.1
        rxDraws := s.rxDraws + (s.env.answer s.rxDraws tx).2.2
        trace := s.trace ++ [.xfer tx rx] } := by
  unfold xfer at h
  split at h
  · cases h
  · rename_i hc
    simp only [Option.some.injEq, Prod.mk.injEq] at h
    obtain ⟨rfl, rfl⟩ := h
    exact ⟨hc, rfl, rfl⟩

/-- A reset leaves a bus that is not stalled as it is, and draws nothing for it (log 8). -/
theorem ShiftEngine.resumed_of_not_stalled {e : ShiftEngine} (h : e.completes ≠ some 0) (draw : Nat) :
    e.resumed draw = (e.completes, 0) := if_neg h

/-- After a reset of a stalled bus it is a free draw how many exchanges complete (log 8). -/
theorem ShiftEngine.resumed_of_stalled {e : ShiftEngine} (h : e.completes = some 0) (draw : Nat) :
    e.resumed draw = (Config.exchangesThatComplete draw, 1) := if_pos h

/-- A byte exchange never completes exactly when none is left (R151). -/
theorem xfer_eq_none {tx : Byte} {s : State} : xfer tx s = none ↔ s.shift.completes = some 0 := by
  unfold xfer
  split <;> simp_all

/-- All that a completed byte exchange can change: the shift engine's count, the environment, its draws, and one event. -/
theorem xfer_frame {tx rx : Byte} {s t : State} (h : xfer tx s = some (rx, t)) :
    t.params = s.params ∧ t.status = s.status ∧ t.echo = s.echo ∧ t.cal = s.cal ∧ t.csN = s.csN ∧ t.engine = s.engine ∧
      t.shift.setup = s.shift.setup ∧ t.port = s.port ∧ t.reads = s.reads ∧ t.readDraws = s.readDraws ∧
      t.trace = s.trace ++ [.xfer tx rx] := by
  obtain ⟨-, -, rfl⟩ := xfer_eq_some h
  simp

/-- A byte exchange keeps the environment well formed. -/
theorem xfer_env_wf {tx rx : Byte} {s t : State} (h : xfer tx s = some (rx, t)) (hs : s.env.wf) : t.env.wf := by
  obtain ⟨-, -, rfl⟩ := xfer_eq_some h
  exact Env.answer_wf hs _ _

/-- All that one move of a pair exchange does (R94): the first byte, held, or the second, with which the row closes. -/
theorem pairMove_eq_some {f : Frame} {opening : State → State} {closing : Frame → State → State} {s t : State}
    (h : pairMove f opening closing s = some t) :
    (∃ rx u, s.engine.half = .cmd ∧ xfer f.1 (opening s) = some (rx, u) ∧ t = holdFirst rx u) ∨
    (∃ rx u, s.engine.half = .data ∧ xfer f.2 s = some (rx, u) ∧ t = closing (u.engine.rxHold, rx) (pairDone u)) := by
  unfold pairMove at h
  split at h
  · rename_i hh
    split at h
    · cases h
    · rename_i rx u hx
      exact .inl ⟨rx, u, hh, hx, (Option.some.inj h).symm⟩
  · rename_i hh
    split at h
    · cases h
    · rename_i rx u hx
      exact .inr ⟨rx, u, hh, hx, (Option.some.inj h).symm⟩

/-- A pair exchange cannot move exactly when no exchange completes (R151). -/
theorem pairMove_eq_none {f : Frame} {opening : State → State} {closing : Frame → State → State} {s : State}
    (hop : (opening s).shift = s.shift) : pairMove f opening closing s = none ↔ s.shift.completes = some 0 := by
  unfold pairMove
  split
  · split
    · rename_i h
      rw [xfer_eq_none, hop] at h
      simpa using h
    · rename_i h
      have : xfer f.1 (opening s) ≠ none := by simp [h]
      rw [Ne, xfer_eq_none, hop] at this
      simpa using this
  · split
    · rename_i h
      rw [xfer_eq_none] at h
      simpa using h
    · rename_i h
      have : xfer f.2 s ≠ none := by simp [h]
      rw [Ne, xfer_eq_none] at this
      simpa using this

/-- All that one move of the engine does: the row of R94 or R114 it makes. -/
theorem engineStep_eq_some {s t : State} (h : engineStep s = some t) :
    (s.engine.fsm = .tStart ∧ t = goto .tAddr (csLow s)) ∨
    (s.engine.fsm = .tAddr ∧ pairMove (s.engine.cmdQ, s.engine.datQ) id closeAddr s = some t) ∨
    (s.engine.fsm = .tLead ∧ s.engine.cnt = 0#4 ∧ t = goto .tToggle s) ∨
    (s.engine.fsm = .tLead ∧ s.engine.cnt ≠ 0#4 ∧ pairMove (nopFrame s.params) id closeLead s = some t) ∨
    (s.engine.fsm = .tToggle ∧ t = toggle s) ∨
    (s.engine.fsm = .tTrail ∧ s.engine.cnt = 0#4 ∧ t = goto .tEnd s) ∨
    (s.engine.fsm = .tTrail ∧ s.engine.cnt ≠ 0#4 ∧ pairMove (nopFrame s.params) id closeTrail s = some t) ∨
    (s.engine.fsm = .tEnd ∧ t = endTransact s) ∨
    (s.engine.fsm = .dStart ∧ t = goto .dSent (setCnt 0#4 (csLow s))) ∨
    (s.engine.fsm = .dSent ∧ pairMove (sentinelFrame s.params) id closeSentinel s = some t) ∨
    (s.engine.fsm = .dScan ∧ scanExhausted s = true ∧ t = goto (.dEnd false) s) ∨
    (s.engine.fsm = .dScan ∧ scanExhausted s = false ∧ pairMove (nopFrame s.params) openScan closeScan s = some t) ∨
    (∃ found, s.engine.fsm = .dEnd found ∧ t = endDetect found s) := by
  cases hf : s.engine.fsm <;> simp only [engineStep, hf] at h
  case tLead => by_cases hc : s.engine.cnt = 0#4 <;> simp_all
  case tTrail => by_cases hc : s.engine.cnt = 0#4 <;> simp_all
  case dScan => by_cases hc : scanExhausted s = true <;> simp_all
  all_goals simp_all

/-- What no move of the engine changes: the parameters, the bring-up setup, the host port and its log, `OVERRUN`, the
latched operands; and bus events are only added. -/
structure MoveFrame (s t : State) : Prop where
  params : t.params = s.params
  setup : t.shift.setup = s.shift.setup
  port : t.port = s.port
  reads : t.reads = s.reads
  readDraws : t.readDraws = s.readDraws
  overrun : t.status.overrun = s.status.overrun
  opQ : t.engine.opQ = s.engine.opQ
  posQ : t.engine.posQ = s.engine.posQ
  totQ : t.engine.totQ = s.engine.totQ
  cmdQ : t.engine.cmdQ = s.engine.cmdQ
  datQ : t.engine.datQ = s.engine.datQ
  trace : s.trace <+: t.trace
  env_wf : s.env.wf → t.env.wf

theorem MoveFrame.refl (s : State) : MoveFrame s s := by
  constructor <;> simp

theorem MoveFrame.trans {s t u : State} (h : MoveFrame s t) (k : MoveFrame t u) : MoveFrame s u where
  params := k.params.trans h.params
  setup := k.setup.trans h.setup
  port := k.port.trans h.port
  reads := k.reads.trans h.reads
  readDraws := k.readDraws.trans h.readDraws
  overrun := k.overrun.trans h.overrun
  opQ := k.opQ.trans h.opQ
  posQ := k.posQ.trans h.posQ
  totQ := k.totQ.trans h.totQ
  cmdQ := k.cmdQ.trans h.cmdQ
  datQ := k.datQ.trans h.datQ
  trace := h.trace.trans k.trace
  env_wf := k.env_wf ∘ h.env_wf

theorem csLow_moveFrame (s : State) : MoveFrame s (csLow s) := by constructor <;> simp
theorem csHigh_moveFrame (s : State) : MoveFrame s (csHigh s) := by
  constructor <;> simp only [csHigh_params, csHigh_shift, csHigh_port, csHigh_reads, csHigh_readDraws, csHigh_status,
    csHigh_engine, csHigh_trace, csHigh_env, List.prefix_append]
  split
  · exact Env.rise_wf
  · exact id
theorem capture_moveFrame (f : Frame) (s : State) : MoveFrame s (capture f s) := by constructor <;> simp
theorem goto_moveFrame (q : Fsm) (s : State) : MoveFrame s (goto q s) := by constructor <;> simp
theorem setCnt_moveFrame (k : Nibble) (s : State) : MoveFrame s (setCnt k s) := by constructor <;> simp
theorem holdFirst_moveFrame (rx : Byte) (s : State) : MoveFrame s (holdFirst rx s) := by constructor <;> simp
theorem pairDone_moveFrame (s : State) : MoveFrame s (pairDone s) := by constructor <;> simp
theorem setCal_moveFrame (k e : Nibble) (s : State) : MoveFrame s (setCal k e s) := by constructor <;> simp
theorem setCalOk_moveFrame (b : Bool) (s : State) : MoveFrame s (setCalOk b s) := by constructor <;> simp
theorem finish_moveFrame (k : Kind) (s : State) : MoveFrame s (finish k s) := by constructor <;> simp [Status.finish]

theorem xfer_moveFrame {tx rx : Byte} {s t : State} (h : xfer tx s = some (rx, t)) : MoveFrame s t := by
  have hw := fun hs => xfer_env_wf h hs
  obtain ⟨h1, h2, h3, h4, h5, h6, h7, h8, h9, h10, h11⟩ := xfer_frame h
  constructor <;> simp_all

theorem verifyEcho_moveFrame (f : Frame) (s : State) : MoveFrame s (verifyEcho f s) := finish_moveFrame _ s

theorem reportCount_moveFrame (found : Bool) (k e : Nibble) (s : State) : MoveFrame s (reportCount found k e s) := by
  unfold reportCount
  split_ifs <;>
    exact ((setCal_moveFrame _ _ s).trans (setCalOk_moveFrame _ _)).trans (finish_moveFrame _ _)

/-- A pair exchange whose row opens and closes inside the frame stays inside it. -/
theorem pairMove_moveFrame {f : Frame} {opening : State → State} {closing : Frame → State → State} {s t : State}
    (ho : ∀ u, MoveFrame u (opening u)) (hc : ∀ r u, MoveFrame u (closing r u))
    (h : pairMove f opening closing s = some t) : MoveFrame s t := by
  rcases pairMove_eq_some h with ⟨rx, u, -, hx, rfl⟩ | ⟨rx, u, -, hx, rfl⟩
  · exact ((ho s).trans (xfer_moveFrame hx)).trans (holdFirst_moveFrame rx u)
  · exact ((xfer_moveFrame hx).trans (pairDone_moveFrame u)).trans (hc _ _)

theorem closeAddr_moveFrame (r : Frame) (s : State) : MoveFrame s (closeAddr r s) :=
  ((capture_moveFrame r s).trans (setCnt_moveFrame _ _)).trans (goto_moveFrame _ _)
theorem closeLead_moveFrame (r : Frame) (s : State) : MoveFrame s (closeLead r s) := setCnt_moveFrame _ s
theorem closeTrail_moveFrame (r : Frame) (s : State) : MoveFrame s (closeTrail r s) :=
  (capture_moveFrame r s).trans (setCnt_moveFrame _ _)
theorem closeSentinel_moveFrame (r : Frame) (s : State) : MoveFrame s (closeSentinel r s) := goto_moveFrame _ s
theorem closeScan_moveFrame (r : Frame) (s : State) : MoveFrame s (closeScan r s) := by
  unfold closeScan
  split
  · exact (capture_moveFrame r s).trans (goto_moveFrame _ _)
  · exact capture_moveFrame r s

/-- Every move of the engine stays inside the frame. -/
theorem engineStep_moveFrame {s t : State} (h : engineStep s = some t) : MoveFrame s t := by
  rcases engineStep_eq_some h with ⟨-, rfl⟩ | ⟨-, hp⟩ | ⟨-, -, rfl⟩ | ⟨-, -, hp⟩ | ⟨-, rfl⟩ | ⟨-, -, rfl⟩ | ⟨-, -, hp⟩ |
    ⟨-, rfl⟩ | ⟨-, rfl⟩ | ⟨-, hp⟩ | ⟨-, -, rfl⟩ | ⟨-, -, hp⟩ | ⟨found, -, rfl⟩
  · exact (csLow_moveFrame s).trans (goto_moveFrame _ _)
  · exact pairMove_moveFrame MoveFrame.refl closeAddr_moveFrame hp
  · exact goto_moveFrame _ s
  · exact pairMove_moveFrame MoveFrame.refl closeLead_moveFrame hp
  · exact (((csHigh_moveFrame s).trans (csLow_moveFrame _)).trans (setCnt_moveFrame _ _)).trans (goto_moveFrame _ _)
  · exact goto_moveFrame _ s
  · exact pairMove_moveFrame MoveFrame.refl closeTrail_moveFrame hp
  · exact ((csHigh_moveFrame s).trans (verifyEcho_moveFrame _ _)).trans (goto_moveFrame _ _)
  · exact ((csLow_moveFrame s).trans (setCnt_moveFrame _ _)).trans (goto_moveFrame _ _)
  · exact pairMove_moveFrame MoveFrame.refl closeSentinel_moveFrame hp
  · exact goto_moveFrame _ s
  · exact pairMove_moveFrame (fun u => setCnt_moveFrame _ u) closeScan_moveFrame hp
  · exact ((csHigh_moveFrame s).trans (reportCount_moveFrame _ _ _ _)).trans (goto_moveFrame _ _)

/-- The engine's turn stays inside the frame. -/
theorem advance_moveFrame (s : State) : MoveFrame s (advance s) := by
  unfold advance
  cases h : engineStep s with
  | none => exact MoveFrame.refl s
  | some t => exact engineStep_moveFrame h

end Sys2Proof.Machine
end

