-- ==== Sys2Proof/Laws/Encoding.lean ====
section
/-! SUPPORT. The bits of an encoded instruction, one lemma an instruction. -/

namespace Sys2Proof

/-- The bits of TRANSACT's word (R71). -/
theorem encode_transact_getLsbD (p n : Nibble) (c d : Byte) {i : Nat} (h : i < 32) :
    (encode (.transact p n c d)).getLsbD i =
      if i < 8 then d.getLsbD i else if i < 16 then c.getLsbD (i - 8) else if i < 20 then false
      else if i < 24 then n.getLsbD (i - 20) else if i < 28 then p.getLsbD (i - 24) else i == 28 := by
  simp only [encode, BitVec.getLsbD_append]
  interval_cases i <;> simp

/-- The bits of DETECT's word (R72). -/
theorem encode_detect_getLsbD (e : Nibble) {i : Nat} (h : i < 32) :
    (encode (.detect e)).getLsbD i =
      if i < 20 then false else if i < 24 then e.getLsbD (i - 20) else i == 29 := by
  simp only [encode, BitVec.getLsbD_append]
  interval_cases i <;> simp

theorem encode_transact_isTransact (p n : Nibble) (c d : Byte) : Word.isTransact (encode (.transact p n c d)) = true := by
  rw [Word.isTransact, beq_iff_eq]
  refine BitVec.eq_of_getLsbD_eq fun i hi => ?_
  rw [BitVec.getLsbD_and, encode_transact_getLsbD p n c d hi]
  interval_cases i <;> simp

theorem encode_detect_isDetect (e : Nibble) : Word.isDetect (encode (.detect e)) = true := by
  rw [Word.isDetect, beq_iff_eq]
  refine BitVec.eq_of_getLsbD_eq fun i hi => ?_
  rw [BitVec.getLsbD_and, encode_detect_getLsbD e hi]
  interval_cases i <;> simp

end Sys2Proof
end

