-- ==== Sys2Proof/Laws/PerInstr.lean ====
section
/-! SUPPORT. Statements for all instructions, one lemma a constructor. -/

namespace Sys2Proof.Laws

/-- R75, R79: the word of an instruction is a legal command word. -/
def EncodesLegally.Statement (i : Instr) : Prop := Word.legal (encode i) = true

theorem EncodesLegally.transact (p n : Nibble) (c d : Byte) : EncodesLegally.Statement (.transact p n c d) := by
  simp [EncodesLegally.Statement, Word.legal, encode_transact_isTransact]

theorem EncodesLegally.detect (e : Nibble) : EncodesLegally.Statement (.detect e) := by
  simp [EncodesLegally.Statement, Word.legal, encode_detect_isDetect]

end Sys2Proof.Laws
end

