-- ==== Sys2Proof/Laws/Run.lean ====
section
/-! SUPPORT. One lemma for each operation of the host port and of a running operation that says all it can do, and the
induction over the turns of an operation, packaged once. -/

namespace Sys2Proof.Machine

/-- All that a port event does when the step answers a next state. -/
theorem portStep_eq_next {command : Word → State → Outcome} {s t : State} (h : portStep command s = .next t) :
    (s.port = [] ∧ t = advance s) ∨
    (∃ off width v rest, s.port = .write off width v :: rest ∧ accessAllowed off width = true ∧
      ((off = 0 ∧ command v { s with port := rest } = .next t) ∨ (off ≠ 0 ∧ t = { s with port := rest }))) ∨
    (∃ off width rest, s.port = .read off width :: rest ∧ accessAllowed off width = true ∧
      t = hostRead off { s with port := rest }) ∨
    (∃ rest, s.port = .wait :: rest ∧
      ((s.status.busy = true ∧ t = advance s) ∨ (s.status.busy = false ∧ t = hostRead 4 { s with port := rest }))) ∨
    (∃ rest, s.port = .engine :: rest ∧ t = advance { s with port := rest }) ∨
    (∃ rest, s.port = .reset :: rest ∧ t = resetFramer { s with port := rest }) ∨
    (∃ rest, s.port = .bringUp :: rest ∧ s.status.busy = false ∧ s.params.legal = true ∧
      t = configureBus { s with port := rest }) := by
  unfold portStep at h
  split at h
  case h_1 hp => exact .inl ⟨hp, (Host.Outcome.next.inj h).symm⟩
  case h_2 off width v rest hp =>
    refine .inr (.inl ⟨off, width, v, rest, hp, ?_⟩)
    split_ifs at h with ha ho
    · exact ⟨ha, .inl ⟨ho, h⟩⟩
    · exact ⟨ha, .inr ⟨ho, (Host.Outcome.next.inj h).symm⟩⟩
  case h_3 off width rest hp =>
    refine .inr (.inr (.inl ⟨off, width, rest, hp, ?_⟩))
    split_ifs at h with ha
    exact ⟨ha, (Host.Outcome.next.inj h).symm⟩
  case h_4 rest hp =>
    refine .inr (.inr (.inr (.inl ⟨rest, hp, ?_⟩)))
    split_ifs at h with hb
    · exact .inl ⟨hb, (Host.Outcome.next.inj h).symm⟩
    · exact .inr ⟨by simpa using hb, (Host.Outcome.next.inj h).symm⟩
  case h_5 rest hp => exact .inr (.inr (.inr (.inr (.inl ⟨rest, hp, (Host.Outcome.next.inj h).symm⟩))))
  case h_6 rest hp => exact .inr (.inr (.inr (.inr (.inr (.inl ⟨rest, hp, (Host.Outcome.next.inj h).symm⟩)))))
  case h_7 rest hp =>
    refine .inr (.inr (.inr (.inr (.inr (.inr ⟨rest, hp, ?_⟩)))))
    split_ifs at h with hb hl
    exact ⟨by simpa using hb, hl, (Host.Outcome.next.inj h).symm⟩

/-- All that one turn of a running operation does. -/
theorem turn_eq_some {s t : State} (h : turn s = some t) :
    s.status.busy = true ∧
    (((s.port = [] ∨ ∃ rest, s.port = .wait :: rest) ∧ engineStep s = some t) ∨
    (∃ width v rest, s.port = .write 0 width v :: rest ∧ t = dropCommand { s with port := rest }) ∨
    (∃ off width v rest, s.port = .write off width v :: rest ∧ off ≠ 0 ∧ t = { s with port := rest }) ∨
    (∃ off width rest, s.port = .read off width :: rest ∧ t = hostRead off { s with port := rest }) ∨
    (∃ rest, s.port = .engine :: rest ∧ t = advance { s with port := rest }) ∨
    (∃ rest, s.port = .reset :: rest ∧ t = resetFramer { s with port := rest })) := by
  unfold turn at h
  split at h
  · rename_i hb
    rw [Bool.and_eq_true] at hb
    obtain ⟨hb, hl⟩ := hb
    refine ⟨hb, ?_⟩
    split at h
    · rename_i u hu
      obtain rfl := Option.some.inj h
      rcases portStep_eq_next hu with ⟨hp, rfl⟩ | ⟨off, width, v, rest, hp, -, ⟨rfl, hc⟩ | ⟨ho, rfl⟩⟩ | ⟨off, width, rest, hp, -, rfl⟩ |
        ⟨rest, hp, ⟨-, rfl⟩ | ⟨hb', -⟩⟩ | ⟨rest, hp, rfl⟩ | ⟨rest, hp, rfl⟩ | ⟨rest, hp, hb', -⟩
      · refine .inl ⟨.inl hp, ?_⟩
        simp only [turnLeft, hp] at hl
        obtain ⟨u, hu⟩ := Option.isSome_iff_exists.1 hl
        simp [advance, hu]
      · exact .inr (.inl ⟨width, v, rest, hp, (Host.Outcome.next.inj hc).symm⟩)
      · exact .inr (.inr (.inl ⟨off, width, v, rest, hp, ho, rfl⟩))
      · exact .inr (.inr (.inr (.inl ⟨off, width, rest, hp, rfl⟩)))
      · refine .inl ⟨.inr ⟨rest, hp⟩, ?_⟩
        simp only [turnLeft, hp] at hl
        obtain ⟨u, hu⟩ := Option.isSome_iff_exists.1 hl
        simp [advance, hu]
      · rw [hb] at hb'; cases hb'
      · exact .inr (.inr (.inr (.inr (.inl ⟨rest, hp, rfl⟩))))
      · exact .inr (.inr (.inr (.inr (.inr ⟨rest, hp, rfl⟩))))
      · rw [hb] at hb'; cases hb'
    · cases h
  · cases h

/-- With nothing landing in it, a running operation's turn is the engine's move. -/
theorem turn_of_undisturbed {s : State} (hb : s.status.busy = true) (hu : s.undisturbed) : turn s = engineStep s := by
  have key : turnLeft s = (engineStep s).isSome ∧
      portStep (fun _ t => .next (dropCommand t)) s = .next (advance s) := by
    rcases hu with hp | hp
    · simp [turnLeft, portStep, hp]
    · obtain ⟨rest, hr⟩ : ∃ rest, s.port = .wait :: rest := by
        cases hq : s.port with
        | nil => simp [hq] at hp
        | cons e rest => exact ⟨rest, by simpa [hq] using hp⟩
      simp [turnLeft, portStep, hr, hb]
  unfold turn
  rw [hb, key.1, key.2, Bool.true_and]
  cases hs : engineStep s with
  | none => simp
  | some t => simp [advance, hs]

theorem turn_of_not_busy {s : State} (hb : s.status.busy = false) : turn s = none := by simp [turn, hb]

theorem runTurns_of_turn_none {s : State} (h : turn s = none) (k : Nat) : runTurns k s = s := by
  cases k <;> simp [runTurns, h]

theorem runTurns_succ {s t : State} (h : turn s = some t) (k : Nat) : runTurns (k + 1) s = runTurns k t := by
  simp [runTurns, h]

/-- A property that every turn keeps holds at the end of the run. -/
theorem runTurns_induction {Q : State → Prop} (hstep : ∀ s t, Q s → turn s = some t → Q t) (k : Nat) {s : State} (hs : Q s) :
    Q (runTurns k s) := by
  induction k generalizing s with
  | zero => exact hs
  | succ k ih =>
    cases h : turn s with
    | none => rwa [runTurns_of_turn_none h]
    | some t => rw [runTurns_succ h]; exact ih (hstep s t hs h)

/-- All that a write to `CMD` does (R76, R77, R140). -/
theorem submit_eq_next {body : State → State} {s t : State} (h : submit body s = .next t) :
    s.shift.setup.isSome = true ∧
      ((s.status.busy = true ∧ t = dropCommand s) ∨ (s.status.busy = false ∧ t = body (accept s))) := by
  unfold submit at h
  split_ifs at h with h1 h2
  · exact ⟨h1, .inl ⟨h2, (Host.Outcome.next.inj h).symm⟩⟩
  · exact ⟨h1, .inr ⟨by simpa using h2, (Host.Outcome.next.inj h).symm⟩⟩

/-- A ready framer accepts the command and carries it out. -/
theorem submit_of_ready {s : State} (h : s.ready) (body : State → State) : submit body s = .next (body (accept s)) := by
  simp [submit, h.1, h.2]

/-- All that a step can do with a command word: reject it, run TRANSACT or run DETECT, on a framer that accepts it, or drop it. -/
theorem writeCommand_eq_next {w : Word} {s t : State} (h : writeCommand exec w s = .next t) :
    s.shift.setup.isSome = true ∧
      ((s.status.busy = true ∧ t = dropCommand s) ∨
        (s.status.busy = false ∧
          (t = rejectIllegal (accept s) ∨ (∃ p n c d, t = transactBody p n c d (accept s)) ∨
            (∃ e, t = detectBody e (accept s))))) := by
  unfold writeCommand at h
  split at h
  · rename_i i _
    cases i with
    | transact p n c d =>
      obtain ⟨h1, h2 | ⟨h2, rfl⟩⟩ := submit_eq_next h
      · exact ⟨h1, .inl h2⟩
      · exact ⟨h1, .inr ⟨h2, .inr (.inl ⟨p, n, c, d, rfl⟩)⟩⟩
    | detect e =>
      obtain ⟨h1, h2 | ⟨h2, rfl⟩⟩ := submit_eq_next h
      · exact ⟨h1, .inl h2⟩
      · exact ⟨h1, .inr ⟨h2, .inr (.inr ⟨e, rfl⟩)⟩⟩
  · obtain ⟨h1, h2 | ⟨h2, rfl⟩⟩ := submit_eq_next h
    · exact ⟨h1, .inl h2⟩
    · exact ⟨h1, .inr ⟨h2, .inl rfl⟩⟩

end Sys2Proof.Machine
end

