-- ==== Sys2Proof/Tests/Slice0.lean ====
section
/-! SUPPORT. Tests on one step each, with expected results from the spec's vectors (`95_test_vectors.md`) or worked out by
hand from its rules, and for every obligation with hypotheses a witness that meets them all. -/

namespace Sys2Proof.Tests

open Sys2Proof Sys2Proof.Machine

/-! ### Bench states -/

/-- The illustrative parameters of D41 (the test vectors' instantiation). -/
def benchParams : Params where
  nopCmd := 0x00#8
  nopData := 0x00#8
  sentinelCmd := 0x55#8
  sentinelData := 0xF0#8
  calMax := 9
  base := 0
  csHighMin := 0
  busSetup := { clockPolarity := false, clockPhase := false, sclkRate := 1 }

/-- A framer after reset and bring-up, every exchange completing. -/
def bench (e : Env) (port : List PortEvent) : State where
  params := benchParams
  status := Status.reset
  echo := Echo.reset
  cal := Cal.reset
  csN := .high
  engine := Engine.reset
  shift := { setup := some benchParams.busSetup, completes := none }
  env := e
  trace := []
  port := port
  reads := []
  rxDraws := 0
  readDraws := 0

/-- A reference chain with these stages, bottom board first, and every output register zero. -/
def chainOf (fs : List Frame) : Chain where
  depth := fs.length
  queue := fs.flatMap (fun f => [f.2, f.1])
  out := (registerAddrs fs.length).map (fun a => (a, 0x00#8))

/-- Three flushed boards. -/
def three : Env := .reference (chainOf [(0, 0), (0, 0), (0, 0)])

/-- The same framer in the middle of TRANSACT 1, 1, 0x12, 0x01: its addressed frame is next. -/
def midway (e : Env) (port : List PortEvent) : State :=
  { bench e port with
    status := { Status.reset with busy := true }
    csN := .low
    engine := { Engine.reset with fsm := .tAddr, posQ := 1, totQ := 1, cmdQ := 0x12, datQ := 0x01 } }

/-- The framer at the same point, the bus stalled. -/
def stalled : State := { midway (.oracle []) [] with shift := { setup := some benchParams.busSetup, completes := some 0 } }

/-- The framer in an engine step, the bus stalled. -/
def stalledAt (q : Fsm) (h : Half) (k : Nibble) : State :=
  { stalled with engine := { stalled.engine with fsm := q, half := h, cnt := k } }

/-- The next state of an outcome. -/
def next? : Outcome → Option State
  | .next s => some s
  | _ => none

/-- The words a host reads from the three registers, with the level of `cs_n`. -/
def registers (s : State) : Word × Word × Word × Level := (s.status.word, s.echo.word, s.cal.word, s.csN)

/-- The byte of an output register, if the environment is a reference chain. -/
def outByte (s : State) (b : Nat) (r : Byte) : Option Byte := s.env.out.read (outAddr b r)

/-! ### Well-formedness -/

theorem test_pos_out_of_range_refused : assemble (.transact 16 1 0 0) = none := by decide
theorem test_total_out_of_range_refused : assemble (.transact 1 16 0 0) = none := by decide
theorem test_command_out_of_range_refused : assemble (.transact 1 1 256 0) = none := by decide
theorem test_data_out_of_range_refused : assemble (.transact 1 1 0 256) = none := by decide
theorem test_expected_out_of_range_refused : assemble (.detect 16) = none := by decide
theorem test_word_out_of_range_refused : assemble (.word 4294967296) = none := by decide
theorem test_sentinel_equal_to_noop_refused :
    Params.legal { benchParams with sentinelCmd := 0x00#8, sentinelData := 0x00#8 } = false := by decide
theorem test_cal_max_zero_refused : Params.legal { benchParams with calMax := 0 } = false := by decide
theorem test_cal_max_sixteen_refused : Params.legal { benchParams with calMax := 16 } = false := by decide

/-! ### Decoding: words written out from R69, R71 and R72 (R83, E9, P4) -/

/-- R71 bit by bit: OP 0001, POS 0010, TOT 0011, RSVD 0000, CMDB 0010 0001, DATB 0111 1111. -/
theorem test_decode_transact : decode 0b00010010001100000010000101111111#32 = .ok (.transact 2 3 0x21 0x7F) := by rfl
/-- R72 bit by bit: OP 0010, then zeros but for TOT 1100. -/
theorem test_decode_detect : decode 0b00100000110000000000000000000000#32 = .ok (.detect 12) := by rfl
/-- R69: DETECT with a nonzero POS is no instruction. -/
theorem test_decode_detect_with_pos : decode 0x21300000#32 = .error .reservedFieldNonzero := by rfl
/-- R70, R74: OP 0 is unassigned. -/
theorem test_decode_opcode_zero : decode 0x00000000#32 = .error .unassignedOpcode := by rfl
/-- R69: in the opcode table's numbering bits 27:24 are POS. -/
theorem test_decode_table_word : decodeTableWord 32 0x12300000 = some (.transact 2 3 0 0) := by rfl

/-! ### Steps -/

/-- TV-T2: registers, and the payload in board 2's latch. -/
theorem test_transact_position_two_of_three :
    (next? (step (bench three [.write 0 4 0x1230217F#32]))).map (fun t => (registers t, outByte t 2 0x21)) =
      some ((0x06#32, 0x217F#32, 0x00#32, .high), some 0x7F#8) := by decide +kernel
/-- TV-T12: a dead line. -/
theorem test_transact_dead_line :
    (next? (exec (.transact 1 1 0x12 0x01) (bench (.oracle [0xFF, 0xFF, 0xFF, 0xFF]) []))).map
        (fun t => (registers t, t.trace)) =
      some ((0x12#32, 0xFFFF#32, 0x00#32, .high),
        [.csLow, .xfer 0x12 0xFF, .xfer 0x01 0xFF, .csHigh, .csLow, .xfer 0x00 0xFF, .xfer 0x00 0xFF, .csHigh]) := by
  decide +kernel
/-- TV-D2: a count that differs from the expected one. -/
theorem test_detect_length_mismatch :
    (next? (step (bench three [.write 0 4 0x20200000#32]))).map registers =
      some (0x22#32, 0x55F0#32, 0x23#32, .high) := by decide +kernel
/-- TV-D9: a stale sentinel in stage 1 is matched one cycle early and lands in board 3. -/
theorem test_detect_stale_sentinel :
    (next? (exec (.detect 3) (bench (.reference (chainOf [(0x55, 0xF0), (0, 0), (0, 0)])) []))).map
        (fun t => (registers t, outByte t 3 0x55)) =
      some ((0x22#32, 0x55F0#32, 0x32#32, .high), some 0xF0#8) := by decide +kernel
/-- R78, R77: an illegal word reads back 0x52. -/
theorem test_illegal_word :
    (next? (step (bench three [.write 0 4 0x30000000#32]))).map registers = some (0x52#32, 0, 0, .high) := by decide +kernel
/-- TV-X16: a word written while busy sets OVERRUN only. -/
theorem test_overrun :
    (next? (step (midway three [.write 0 4 0x20100000#32]))).map (fun t => (t.status.word, t.engine.fsm)) =
      some (0x09#32, .tAddr) := by decide +kernel

/-! ### A witness for every statement with hypotheses

Each is named after its statement and shows values that meet the statement's hypotheses together; where the statement has
several clauses, one for each, at a boundary of its range. -/

/-- The bench is ready, undisturbed, and its bus never stalls. -/
theorem bench_ready (e : Env) (port : List PortEvent) : (bench e port).ready := ⟨rfl, rfl⟩
theorem bench_undisturbed (e : Env) : (bench e []).undisturbed := .inl rfl
theorem bench_completes (e : Env) (port : List PortEvent) (k : Nat) : (bench e port).completesAtLeast k := by
  intro c h
  cases h
/-- A bench chain of at least one board is well formed. -/
theorem chainOf_wf (f : Frame) (fs : List Frame) : (chainOf (f :: fs)).wf := by
  refine ⟨Nat.succ_pos _, ?_, ?_⟩ <;> simp [chainOf, Function.comp_def, Nat.mul_comm, Nat.mul_add]
theorem chainOf_stages (fs : List Frame) : (chainOf fs).stages = fs := by
  change stagesOf (fs.flatMap fun f => [f.2, f.1]) = fs
  induction fs with
  | nil => rfl
  | cons f fs ih => simpa [stagesOf] using ih
theorem three_wf : (chainOf [(0, 0), (0, 0), (0, 0)]).wf := chainOf_wf _ _

theorem witness_EncodeOfDecodeIsTheWord : decode 0x20300000#32 = .ok (.detect 3) := by rfl
theorem witness_AssemblerWritesTheEncodings :
    (assemble (.transact 15 15 255 255) = some 0x1FF0FFFF#32 ∧ assemble (.transact 0 0 0 0) = some 0x10000000#32) ∧
      (assemble (.detect 15) = some 0x20F00000#32 ∧ assemble (.detect 0) = some 0x20000000#32) ∧
      assemble (.word 0xFFFFFFFF) = some 0xFFFFFFFF#32 := by decide
theorem witness_ResetEventPutsTheFramerInReset : (midway three [.reset]).port = .reset :: [] ∧ (midway three [.reset]).csN = .low :=
  ⟨rfl, rfl⟩
theorem witness_ResetKeepsWhatIsNotTheFramers : (midway three [.reset, .read 4 4]).port = .reset :: [.read 4 4] := rfl
theorem witness_ResetDuringOperationForgetsTheChain :
    ((midway three [.reset]).port = .reset :: [] ∧ (midway three [.reset]).status.busy = true ∧
      (midway three [.reset]).env = .reference (chainOf [(0, 0), (0, 0), (0, 0)])) ∧
    ((midway (.oracle [7]) [.reset]).port = .reset :: [] ∧ (midway (.oracle [7]) [.reset]).status.busy = true ∧
      (midway (.oracle [7]) [.reset]).env = .oracle [7]) ∧
    ((bench three [.reset]).port = .reset :: [] ∧ (bench three [.reset]).status.busy = false ∧
      (bench three [.reset]).csN = .high) := by
  refine ⟨⟨rfl, rfl, rfl⟩, ⟨rfl, rfl, rfl⟩, rfl, rfl, rfl⟩
theorem witness_ReadOnlyRegistersIgnoreWritesAndCmdReadsZero :
    (bench three [.write 4 4 1]).port = .write 4 4 1 :: [] ∧ (bench three [.write 8 4 1]).port = .write 8 4 1 :: [] ∧
      (bench three [.write 12 4 1]).port = .write 12 4 1 :: [] ∧ (bench three [.read 0 4]).port = .read 0 4 :: [] :=
  ⟨rfl, rfl, rfl, rfl⟩
theorem witness_ReadsReturnTheRegisters :
    (midway three [.read 4 4]).port = .read 4 4 :: [] ∧
      ((bench three [.read 8 4]).port = .read 8 4 :: [] ∧ (bench three [.read 8 4]).status.busy = false) ∧
      ((bench three [.read 12 4]).port = .read 12 4 :: [] ∧ (bench three [.read 12 4]).status.busy = false) :=
  ⟨rfl, ⟨rfl, rfl⟩, rfl, rfl⟩
theorem witness_ReadsWhileBusyAreUnspecified :
    (midway three []).status.busy = true ∧ (midway three [.read 8 4]).port = .read 8 4 :: [] ∧
      (midway three [.read 12 4]).port = .read 12 4 :: [] ∧ (midway three [.read 4 4]).port = .read 4 4 :: [] :=
  ⟨rfl, rfl, rfl, rfl⟩
theorem witness_AccessesOutsideTheInterfaceAreRefused :
    ((bench three [.write 0 2 1]).port = .write 0 2 1 :: [] ∧ (bench three [.read 2 4]).port = .read 2 4 :: [] ∧
      (bench three [.read 16 4]).port = .read 16 4 :: []) ∧
    ((bench three [.write 12 4 1]).port = .write 12 4 1 :: [] ∧ (bench three [.read 12 4]).port = .read 12 4 :: []) :=
  ⟨⟨rfl, rfl, rfl⟩, rfl, rfl⟩
theorem witness_WaitPollsUntilNotBusy :
    ((bench three [.wait]).port = .wait :: [] ∧ (bench three [.wait]).status.busy = false) ∧
      ((midway three [.wait]).port = .wait :: [] ∧ (midway three [.wait]).status.busy = true) := ⟨⟨rfl, rfl⟩, rfl, rfl⟩
theorem witness_BringUpNeedsLegalParameters :
    ((midway three [.bringUp]).port = .bringUp :: [] ∧ (midway three [.bringUp]).status.busy = true) ∧
      (bench three [.bringUp]).port = .bringUp :: [] ∧ (bench three [.bringUp]).status.busy = false ∧
      ((benchParams.sentinelCmd, benchParams.sentinelData) ≠ (benchParams.nopCmd, benchParams.nopData) ∧
        1 ≤ benchParams.calMax ∧ benchParams.calMax ≤ 15) ∧
      (let P : Params := { benchParams with calMax := 16 }
       ¬((P.sentinelCmd, P.sentinelData) ≠ (P.nopCmd, P.nopData) ∧ 1 ≤ P.calMax ∧ P.calMax ≤ 15)) := by
  refine ⟨⟨rfl, rfl⟩, rfl, rfl, by decide, by decide⟩
theorem witness_CommandsBeforeBringUpAreRefused :
    ({ State.reset with port := [.write 0 4 0x20300000#32] } : State).port = .write 0 4 0x20300000#32 :: [] ∧
      ({ State.reset with port := [.write 0 4 0x20300000#32] } : State).shift.setup = none :=
  ⟨rfl, rfl⟩
/-- A register of the top board, and the first address above it. -/
theorem witness_EveryOutputRegisterHoldsAByte :
    (chainOf [(0, 0), (0, 0), (0, 0)]).wf ∧ 3 ≤ (chainOf [(0, 0), (0, 0), (0, 0)]).depth ∧
      (chainOf [(0, 0), (0, 0), (0, 0)]).depth < 4 := ⟨three_wf, le_rfl, Nat.lt_succ_self 3⟩
theorem witness_StepRunsTheDecodedInstruction :
    (bench three [.write 0 4 0x20300000#32]).port = .write 0 4 0x20300000#32 :: [] ∧ decode 0x20300000#32 = .ok (.detect 3) :=
  ⟨rfl, rfl⟩
theorem witness_PlacedWordIsRunByTheNextStep : decodeTableWord 32 0x20300000 = some (.detect 3) := by rfl
theorem witness_WordWrittenWhileBusyIsDropped :
    (midway three [.write 0 4 0x30000000#32]).shift.setup.isSome = true ∧
      (midway three [.write 0 4 0x30000000#32]).status.busy = true ∧
      (midway three [.write 0 4 0x30000000#32]).port = .write 0 4 0x30000000#32 :: [] := ⟨rfl, rfl, rfl⟩
theorem witness_IllegalWordIsRejected :
    (bench three [.write 0 4 0x20310000#32]).ready ∧
      (bench three [.write 0 4 0x20310000#32]).port = .write 0 4 0x20310000#32 :: [] ∧
      ¬((0x20310000#32 &&& 0xF00F0000#32) = 0x10000000#32 ∨ (0x20310000#32 &&& 0xFF0FFFFF#32) = 0x20000000#32) :=
  ⟨⟨rfl, rfl⟩, rfl, by decide⟩
/-- Each of R85's three conditions, at its boundary. -/
theorem witness_TransactWithBadArgumentsIsRejected :
    (bench three []).ready ∧ (0#4 : Nibble).toNat = 0 ∧ (3#4 : Nibble).toNat < (4#4 : Nibble).toNat := ⟨⟨rfl, rfl⟩, by decide⟩
theorem witness_ResultPersistsUntilTheNextCommandOrReset :
    (bench three [.read 8 4]).status.busy = false ∧ (bench three [.read 8 4]).engine.fsm = .idle ∧
      step (bench three [.read 8 4]) = .next (hostRead 8 (bench three [])) ∧
      (∀ v width rest, (bench three [.read 8 4]).port ≠ .write 0 width v :: rest) ∧
      (∀ rest, (bench three [.read 8 4]).port ≠ .reset :: rest) := by
  refine ⟨rfl, rfl, rfl, ?_, ?_⟩ <;> intros <;> simp [bench]

/-- The hypotheses of the statements on TRANSACT's own effect: `p = N = 15`, the largest. -/
theorem witness_TransactCompletes :
    (bench three []).ready ∧ (bench three []).undisturbed ∧ 1 ≤ (15#4 : Nibble).toNat ∧
      (15#4 : Nibble).toNat ≤ (15#4 : Nibble).toNat ∧ (bench three []).completesAtLeast (2 * (15#4 : Nibble).toNat + 2) :=
  ⟨bench_ready _ _, bench_undisturbed _, by decide, by decide, bench_completes _ _ _⟩
theorem witness_TransactEventCounts :
    (bench three []).ready ∧ (bench three []).undisturbed ∧ 1 ≤ (1#4 : Nibble).toNat ∧
      (1#4 : Nibble).toNat ≤ (1#4 : Nibble).toNat ∧ (bench three []).completesAtLeast (2 * (1#4 : Nibble).toNat + 2) :=
  ⟨bench_ready _ _, bench_undisturbed _, by decide, by decide, bench_completes _ _ _⟩
theorem witness_TransactFollowsItsProcedure :
    (bench three []).ready ∧ (bench three []).undisturbed ∧ 1 ≤ (2#4 : Nibble).toNat ∧ (2#4 : Nibble).toNat ≤ (3#4 : Nibble).toNat ∧
      (transactProcedure 2 3 0x21 0x7F (accept (bench three []))).isSome = true :=
  ⟨bench_ready _ _, bench_undisturbed _, by decide, by decide, by decide +kernel⟩
theorem witness_TransactLeavesCalibrationAlone :
    (midway three [.read 4 4]).noReset ∧
      exec (.transact 2 3 0x21 0x7F) (midway three [.read 4 4]) = .next (dropCommand (midway three [.read 4 4])) ∧
      (bench three []).noReset ∧ (next? (exec (.transact 2 3 0x21 0x7F) (bench three []))).isSome = true := by
  refine ⟨by decide, rfl, by decide, by decide +kernel⟩
/-- A board above the target, a stale frame in the stage it latches. -/
theorem witness_TransactOnTheRightChain :
    let ch := chainOf [(0x33, 0x44), (0, 0), (0, 0)]
    (bench (.reference ch) []).ready ∧ (bench (.reference ch) []).undisturbed ∧ (bench (.reference ch) []).env = .reference ch ∧
      ch.wf ∧ ch.depth = (3#4 : Nibble).toNat ∧ 1 ≤ (2#4 : Nibble).toNat ∧ (2#4 : Nibble).toNat ≤ (3#4 : Nibble).toNat ∧
      (bench (.reference ch) []).completesAtLeast (2 * (3#4 : Nibble).toNat + 2) ∧
      (0x21#8 : Byte) ≠ benchParams.nopCmd ∧ (2#4 : Nibble).toNat < 3 ∧
      ch.stage (3 - (2#4 : Nibble).toNat) = some (0x33#8, 0x44#8) ∧ (0x33#8 : Byte) ≠ benchParams.nopCmd :=
  ⟨bench_ready _ _, bench_undisturbed _, rfl, chainOf_wf _ _, rfl, by decide, by decide, bench_completes _ _ _, by decide, by decide,
    by decide, by decide⟩
/-- A chain shorter than `total` that holds board `p`, and one longer. -/
theorem witness_TransactOnAChainOfAnotherLength :
    let ch := chainOf [(0, 0), (0, 0), (0, 0)]
    (bench three []).ready ∧ (bench three []).undisturbed ∧ (bench three []).env = .reference ch ∧ ch.wf ∧
      ch.flushed benchParams = true ∧ (0x21#8, 0x7F#8) ≠ nopFrame benchParams ∧
      (∀ k, (bench three []).completesAtLeast k) ∧
      (ch.depth ≠ (4#4 : Nibble).toNat ∧ 1 ≤ (3#4 : Nibble).toNat ∧ (3#4 : Nibble).toNat ≤ ch.depth ∧
        (3#4 : Nibble).toNat ≤ (4#4 : Nibble).toNat) ∧
      (ch.depth ≠ (2#4 : Nibble).toNat ∧ (2#4 : Nibble).toNat < ch.depth ∧ (1#4 : Nibble).toNat ≤ (2#4 : Nibble).toNat) :=
  ⟨bench_ready _ _, bench_undisturbed _, rfl, three_wf, by decide, by decide, bench_completes _ _, by decide, by decide⟩
theorem witness_TransactOfTheNoOpPairAlwaysPassesWhenFlushed :
    let ch := chainOf [(0, 0), (0, 0), (0, 0)]
    (bench three []).ready ∧ (bench three []).undisturbed ∧ (bench three []).env = .reference ch ∧ ch.wf ∧
      ch.flushed benchParams = true ∧ 1 ≤ (1#4 : Nibble).toNat ∧ (1#4 : Nibble).toNat ≤ (5#4 : Nibble).toNat ∧
      (bench three []).completesAtLeast (2 * (5#4 : Nibble).toNat + 2) :=
  ⟨bench_ready _ _, bench_undisturbed _, rfl, three_wf, by decide, by decide, by decide, bench_completes _ _ _⟩

theorem witness_DetectFollowsItsProcedure :
    (bench three []).ready ∧ (bench three []).undisturbed ∧ (bench three []).params.legal = true ∧
      (detectProcedure 3 (accept (bench three []))).isSome = true :=
  ⟨bench_ready _ _, bench_undisturbed _, by decide, by decide +kernel⟩
theorem witness_DetectCompletes :
    (bench three []).ready ∧ (bench three []).undisturbed ∧ (bench three []).params.legal = true ∧
      (bench three []).completesAtLeast (2 * (bench three []).params.calMax + 2) :=
  ⟨bench_ready _ _, bench_undisturbed _, by decide, bench_completes _ _ _⟩
theorem witness_DetectEventCounts :
    (bench (.oracle []) []).ready ∧ (bench (.oracle []) []).undisturbed ∧ (bench (.oracle []) []).params.legal = true ∧
      (bench (.oracle []) []).completesAtLeast (2 * (bench (.oracle []) []).params.calMax + 2) :=
  ⟨bench_ready _ _, bench_undisturbed _, by decide, bench_completes _ _ _⟩
/-- `E = 0`, and `E = CAL_MAX + 1`. -/
theorem witness_DetectWithAnImpossibleCountNeverPasses :
    (bench three []).ready ∧ (bench three []).undisturbed ∧ (bench three []).params.legal = true ∧ (0#4 : Nibble).toNat = 0 ∧
      (bench three []).params.calMax < (10#4 : Nibble).toNat ∧
      (bench three []).completesAtLeast (2 * (bench three []).params.calMax + 2) :=
  ⟨bench_ready _ _, bench_undisturbed _, by decide, rfl, by decide, bench_completes _ _ _⟩
theorem witness_DetectLeavesTransactOperandsAlone :
    (bench three [.read 4 4]).ready ∧ (bench three [.read 4 4]).noReset ∧
      exec (.detect 3) (bench three [.read 4 4]) = .next (detectBody 3 (accept (bench three [.read 4 4]))) :=
  ⟨bench_ready _ _, by decide, submit_of_ready (bench_ready _ _) _⟩
/-- A chain as long as the bound, a stale sentinel only in its top stage. -/
theorem witness_DetectCountsTheBoards :
    let ch := chainOf [(0, 0), (0, 0), (0, 0), (0, 0), (0, 0), (0, 0), (0, 0), (0, 0), (0x55, 0xF0)]
    (bench (.reference ch) []).ready ∧ (bench (.reference ch) []).undisturbed ∧ (bench (.reference ch) []).params.legal = true ∧
      (bench (.reference ch) []).env = .reference ch ∧ ch.wf ∧ ch.depth ≤ (bench (.reference ch) []).params.calMax ∧
      (∀ j f, 1 ≤ j → j < ch.depth → ch.stage j = some f → f ≠ sentinelFrame benchParams) ∧
      (bench (.reference ch) []).completesAtLeast (2 * ch.depth + 2) := by
  refine ⟨bench_ready _ _, bench_undisturbed _, by decide, rfl, chainOf_wf _ _, by decide, ?_, bench_completes _ _ _⟩
  intro j f h1 h2 hs
  have h3 : j < 9 := h2
  have h4 : f = (0#8, 0#8) := by
    interval_cases j <;> simpa [Chain.stage, chainOf_stages, eq_comm] using hs
  subst h4
  decide
theorem witness_DetectMatchesAStaleSentinelEarly :
    let ch := chainOf [(0x55, 0xF0), (0, 0), (0, 0)]
    (bench (.reference ch) []).ready ∧ (bench (.reference ch) []).undisturbed ∧ (bench (.reference ch) []).params.legal = true ∧
      (bench (.reference ch) []).env = .reference ch ∧ ch.wf ∧ 1 < ch.depth ∧
      ch.stage 1 = some (sentinelFrame benchParams) ∧
      (∀ i f, 1 < i → i < ch.depth → ch.stage i = some f → f ≠ sentinelFrame benchParams) ∧
      ch.depth - 1 ≤ (bench (.reference ch) []).params.calMax ∧
      (bench (.reference ch) []).completesAtLeast (2 * (ch.depth - 1) + 2) := by
  refine ⟨bench_ready _ _, bench_undisturbed _, by decide, rfl, chainOf_wf _ _, by decide, by decide, ?_, by decide,
    bench_completes _ _ _⟩
  intro i f h1 h2 hs
  obtain rfl : i = 2 := by
    have h3 : i < 3 := h2
    omega
  have h4 : f = (0#8, 0#8) := by simpa [Chain.stage, chainOf_stages, eq_comm] using hs
  subst h4
  decide
theorem witness_DetectOnATooLongChainIsNotFound :
    let ch := chainOf [(0, 0), (0, 0)]
    let s : State := { bench (.reference ch) [] with params := { benchParams with calMax := 1 } }
    s.ready ∧ s.undisturbed ∧ s.params.legal = true ∧ s.env = .reference ch ∧ ch.wf ∧ s.params.calMax < ch.depth ∧
      (∀ j f, ch.depth - s.params.calMax ≤ j → j < ch.depth → ch.stage j = some f → f ≠ sentinelFrame s.params) ∧
      s.completesAtLeast (2 * s.params.calMax + 2) := by
  refine ⟨⟨rfl, rfl⟩, .inl rfl, by decide, rfl, chainOf_wf _ _, by decide, ?_, fun c h => by cases h⟩
  intro j f h1 h2 hs
  obtain rfl : j = 1 := by
    have h3 : 2 - 1 ≤ j := h1
    have h4 : j < 2 := h2
    omega
  have h4 : f = (0#8, 0#8) := by simpa [Chain.stage, chainOf_stages, eq_comm] using hs
  subst h4
  decide

/-- Stalled at the addressed frame; at the last pad of a TRANSACT; between two scan pairs with one left, and inside the last. -/
theorem witness_StalledExchangeHangsForEver :
    (∀ s ∈ [stalled, stalledAt .tLead .cmd 1, stalledAt .tTrail .data 1, stalledAt .dScan .cmd 8, stalledAt .dScan .data 9],
      s.status.busy = true ∧ s.csN = .low ∧ s.engine.fsm.exchanges = true ∧ s.port = [] ∧ s.shift.completes = some 0 ∧
        (s.engine.fsm = .tLead ∨ s.engine.fsm = .tTrail → s.engine.cnt ≠ 0#4) ∧
        (s.engine.fsm = .dScan → s.engine.half = .data ∨ s.engine.cnt.toNat < s.params.calMax)) := by decide
theorem witness_EveryOperationEndsOrHangsAtAnExchange :
    (bench (.oracle []) []).ready ∧ (bench (.oracle []) []).engine.fsm = .idle ∧ (bench (.oracle []) []).csN = .high ∧
      (bench (.oracle []) []).undisturbed ∧
      (bench (.oracle []) []).params.legal = true := ⟨bench_ready _ _, rfl, rfl, bench_undisturbed _, by decide⟩
theorem witness_HostAccessesDoNotDisturbTheRunningOperation :
    (bench three []).ready ∧ (bench three []).params.legal = true ∧
      (∀ e ∈ [PortEvent.engine, .write 0 4 0x20300000#32, .read 12 4, .write 4 4 1, .wait], PortEvent.harmless e = true) :=
  ⟨bench_ready _ _, by decide, by decide⟩
theorem witness_UnspecifiedRegistersAreNotRead :
    (bench three []).status.busy = false ∧ (bench three []).engine.fsm = .idle ∧ (bench three []).engine.half = .cmd ∧
      ({ Engine.reset with posQ := 7, cnt := 9, rxHold := 0xAA } : Engine).fsm = .idle ∧
      ({ Engine.reset with posQ := 7, cnt := 9, rxHold := 0xAA } : Engine).half = .cmd := ⟨rfl, rfl, rfl, rfl, rfl⟩
theorem witness_OperationIsTheRunOfItsSteps :
    (bench three [.engine, .reset]).ready ∧ 1 ≤ (1#4 : Nibble).toNat ∧ (1#4 : Nibble).toNat ≤ (3#4 : Nibble).toNat :=
  ⟨⟨rfl, rfl⟩, by decide, by decide⟩

/-- A busy framer in the middle of a pair meets the invariant. -/
theorem midway_inv (port : List PortEvent) : (midway three port).Inv where
  busy_iff_running := by simp [midway]
  cs_level := rfl
  busy_not_done := fun _ => rfl
  result_cleared := fun _ => ⟨rfl, rfl⟩
  pass_is_ok := fun h => by cases h
  operands_ok := ⟨rfl, rfl⟩
  half_ok := fun _ => rfl
  counter_ok := trivial
  cal_ok := fun h => by cases h
  bring_up := fun _ => rfl
  busy_after_bring_up := fun _ => rfl
  env_wf := three_wf
theorem witness_StepKeepsTheInvariant :
    (midway three []).Inv ∧ step (midway three []) = .next (advance (midway three [])) := ⟨midway_inv [], rfl⟩
/-- A step with a command and a reset queued behind its event; and a step on a command. -/
theorem witness_ExchangesHappenOnlyWhileChipSelectIsLow :
    ((midway three [.engine, .reset]).Inv ∧ (∀ rest, (midway three [.engine, .reset]).port ≠ .reset :: rest) ∧
      (∀ width v rest, (midway three [.engine, .reset]).port = .write 0 width v :: rest → (midway three [.engine, .reset]).noReset) ∧
      step (midway three [.engine, .reset]) = .next (advance (midway three [.reset]))) ∧
    ((midway three [.write 0 4 0#32]).Inv ∧ (midway three [.write 0 4 0#32]).noReset ∧
      step (midway three [.write 0 4 0#32]) = .next (dropCommand (midway three []))) := by
  refine ⟨⟨midway_inv _, ?_, ?_, rfl⟩, midway_inv _, by decide, rfl⟩ <;> intros <;> simp_all [midway, bench]
theorem witness_ParametersNeverChange : step (midway three [.reset]) = .next (resetFramer (midway three [])) := rfl
/-- A command and a reset are queued behind. -/
theorem witness_OverrunChangesOnlyByCommandsAndReset :
    let s := midway three [.write 4 4 1, .write 0 4 0#32, .reset]
    step s = .next (midway three [.write 0 4 0#32, .reset]) ∧ (∀ width v rest, s.port ≠ .write 0 width v :: rest) ∧
      (∀ rest, s.port ≠ .reset :: rest) := by
  refine ⟨rfl, ?_, ?_⟩ <;> intros <;> simp [midway, bench]
theorem witness_CommandsNeitherFaultNorAreRefused :
    (bench three [.write 0 4 0#32]).shift.setup.isSome = true ∧ (bench three [.write 0 4 0#32]).port = .write 0 4 0#32 :: [] :=
  ⟨rfl, rfl⟩

end Sys2Proof.Tests
end

/-! Proofs of O43, O45 and O47 (family `00_scope`): the parameters, the two grains of an operation, and the invariant. -/

namespace Sys2Proof.Machine

/-! ### What the turns of an operation leave alone -/

/-- R8, R140; log 10: no turn of a running operation changes the parameters or the bring-up setup. -/
theorem turn_params_setup {s t : State} (h : turn s = some t) : t.params = s.params ∧ t.shift.setup = s.shift.setup := by
  obtain ⟨-, ⟨-, hm⟩ | ⟨_, _, _, -, rfl⟩ | ⟨_, _, _, _, -, -, rfl⟩ | ⟨_, _, _, -, rfl⟩ | ⟨_, -, rfl⟩ | ⟨_, -, rfl⟩⟩ :=
    turn_eq_some h
  · exact ⟨(engineStep_moveFrame hm).params, (engineStep_moveFrame hm).setup⟩
  · exact ⟨rfl, rfl⟩
  · exact ⟨rfl, rfl⟩
  · exact ⟨rfl, rfl⟩
  · exact ⟨(advance_moveFrame _).params, (advance_moveFrame _).setup⟩
  · exact ⟨rfl, rfl⟩

theorem runOperation_params (s : State) : (runOperation s).params = s.params :=
  runTurns_induction (Q := fun u => u.params = s.params) (fun _ _ hu ht => (turn_params_setup ht).1.trans hu) _ rfl

theorem transactBody_params (p n : Nibble) (c d : Byte) (s : State) : (transactBody p n c d s).params = s.params := by
  unfold transactBody
  split
  · rfl
  · exact runOperation_params _

theorem detectBody_params (e : Nibble) (s : State) : (detectBody e s).params = s.params := runOperation_params _

theorem writeCommand_params {w : Word} {s t : State} (h : writeCommand exec w s = .next t) : t.params = s.params := by
  obtain ⟨-, ⟨-, rfl⟩ | ⟨-, rfl | ⟨p, n, c, d, rfl⟩ | ⟨e, rfl⟩⟩⟩ := writeCommand_eq_next h
  · rfl
  · rfl
  · exact transactBody_params p n c d _
  · exact detectBody_params e _

/-- Settles O47: by the cases of a step, a whole operation by induction on its turns. -/
theorem parametersNeverChange : Obligations.ParametersNeverChange := by
  intro s t h
  rcases portStep_eq_next h with ⟨-, rfl⟩ | ⟨_, _, v, _, -, -, ⟨-, hc⟩ | ⟨-, rfl⟩⟩ | ⟨_, _, _, -, -, rfl⟩ |
    ⟨_, -, ⟨-, rfl⟩ | ⟨-, rfl⟩⟩ | ⟨_, -, rfl⟩ | ⟨_, -, rfl⟩ | ⟨_, -, -, -, rfl⟩
  · exact (advance_moveFrame s).params
  · exact (writeCommand_params hc :)
  · rfl
  · rfl
  · exact (advance_moveFrame s).params
  · rfl
  · exact (advance_moveFrame _).params
  · rfl
  · rfl

/-! ### The two grains: turns of an operation and steps of the machine -/

/-- R76: after bring-up and while busy, every command word is dropped, whatever it encodes. -/
theorem writeCommand_of_busy {s : State} (hs : s.shift.setup.isSome = true) (hb : s.status.busy = true) (w : Word) :
    writeCommand exec w s = .next (dropCommand s) := by
  have hsub (body : State → State) : submit body s = .next (dropCommand s) := by simp [submit, hs, hb]
  unfold writeCommand
  split
  case h_1 i _ => cases i <;> exact hsub _
  case h_2 => exact hsub _

/-- While an operation runs, a step does with the next port event what a turn does with it. -/
theorem step_of_busy {s : State} (hs : s.shift.setup.isSome = true) (hb : s.status.busy = true) :
    step s = portStep (fun _ t => .next (dropCommand t)) s := by
  unfold step portStep
  split
  case h_2 off width v rest _ => rw [writeCommand_of_busy (s := { s with port := rest }) hs hb v]
  all_goals rfl

/-- A turn of a running operation is a step of the machine. -/
theorem step_of_turn {s t : State} (hs : s.shift.setup.isSome = true) (h : turn s = some t) : step s = .next t := by
  rw [step_of_busy hs (turn_eq_some h).1]
  unfold turn at h
  split at h
  · split at h
    · rename_i u hu
      rw [hu, Option.some.inj h]
    · cases h
  · cases h

theorem run_succ_of_step {s t : State} (h : step s = .next t) (j : Nat) :
    Host.Core.run Sys2Proof.core (j + 1) s = Host.Core.run Sys2Proof.core j t := by
  have hc : Sys2Proof.core.step s = .next t := h
  simp only [Host.Core.run, hc]

/-- At most `k` turns of an operation are some number of steps. -/
theorem run_of_runTurns {s : State} (hs : s.shift.setup.isSome = true) (k : Nat) :
    ∃ j, Host.Core.run Sys2Proof.core j s = .next (runTurns k s) := by
  induction k generalizing s with
  | zero => exact ⟨0, rfl⟩
  | succ k ih =>
    cases ht : turn s with
    | none => exact ⟨0, by rw [runTurns_of_turn_none ht]; rfl⟩
    | some t =>
      obtain ⟨j, hj⟩ := ih (s := t) (by rwa [(turn_params_setup ht).2])
      exact ⟨j + 1, by rw [runTurns_succ ht, run_succ_of_step (step_of_turn hs ht), hj]⟩

/-- R85: `1 <= p <= N` passes the check of the arguments. -/
theorem badArgs_eq_false {p n : Nibble} : badArgs p n = false ↔ 1 ≤ p.toNat ∧ p.toNat ≤ n.toNat := by
  simp only [badArgs, Bool.or_eq_false_iff, decide_eq_false_iff_not, BitVec.toNat_eq, BitVec.lt_def, BitVec.toNat_ofNat]
  omega

/-- Settles O43: both grains run the same turns, each of which is a step. -/
theorem operationIsTheRunOfItsSteps : Obligations.OperationIsTheRunOfItsSteps := by
  intro s hr
  refine ⟨fun p n c d hp hn => ?_, fun e => ?_⟩
  · obtain ⟨k, hk⟩ := run_of_runTurns (s := setBusy (latchTransact p n c d (accept s))) hr.1 _
    have hb : transactBody p n c d (accept s) = runOperation (setBusy (latchTransact p n c d (accept s))) := by
      rw [transactBody, badArgs_eq_false.2 ⟨hp, hn⟩]; rfl
    exact ⟨k, _, submit_of_ready hr _, hb ▸ hk⟩
  · obtain ⟨k, hk⟩ := run_of_runTurns (s := setBusy (latchDetect e (accept s))) hr.1 _
    exact ⟨k, _, submit_of_ready hr _, hk⟩

/-! ### The invariant: what it does not see, and what it says while an operation runs -/

theorem State.inv_forgetHost {s : State} : s.forgetHost.Inv ↔ s.Inv :=
  ⟨fun h => { h with }, fun h => { h with }⟩

/-- The invariant does not see what host accesses may change. -/
theorem State.Inv.of_forgetHost_eq {s t : State} (h : s.Inv) (e : t.forgetHost = s.forgetHost) : t.Inv :=
  State.inv_forgetHost.1 (e ▸ State.inv_forgetHost.2 h)

/-- R94: outside the rows that exchange pairs, the first byte of a pair is next. -/
theorem State.Inv.half_cmd {s : State} (h : s.Inv) (hx : s.engine.fsm.exchanges = false) : s.engine.half = .cmd := by
  cases hh : s.engine.half with
  | cmd => rfl
  | data => simp [h.half_ok hh] at hx

/-- R9: while an operation runs, the parameters are legal, so the scan's bound fits its counter. -/
theorem State.Inv.calMax_le {s : State} (h : s.Inv) (hf : s.engine.fsm ≠ .idle) : s.params.calMax ≤ 15 := by
  have hl := h.bring_up (h.busy_after_bring_up (h.busy_iff_running.2 hf))
  simp only [Params.legal, Bool.and_eq_true, decide_eq_true_eq] at hl
  exact hl.2

/-- The operation an engine step belongs to (R38). -/
def Fsm.op : Fsm → Option Op
  | .idle => none
  | .tStart | .tAddr | .tLead | .tToggle | .tTrail | .tEnd => some .transact
  | .dStart | .dSent | .dScan | .dEnd _ => some .detect

theorem Fsm.op_eq_none {q : Fsm} : q.op = none ↔ q = .idle := by cases q <;> simp [Fsm.op]

theorem Engine.operandsOk_iff {e : Engine} : e.operandsOk ↔
    (∀ o, e.fsm.op = some o → e.opQ = o) ∧ (e.fsm.op = some .transact → badArgs e.posQ e.totQ = false) := by
  unfold Engine.operandsOk
  cases e.fsm <;> simp [Fsm.op]

/-- R85: a running TRANSACT has `1 <= p <= N`. -/
theorem State.Inv.operands_range {s : State} (h : s.Inv) (ho : s.engine.fsm.op = some .transact) :
    1 ≤ s.engine.posQ.toNat ∧ s.engine.posQ.toNat ≤ s.engine.totQ.toNat :=
  badArgs_eq_false.1 ((Engine.operandsOk_iff.1 h.operands_ok).2 ho)

/-- The rows that count the pairs they exchange (R94, R114). -/
def Fsm.countsPairs : Fsm → Bool
  | .tLead | .tTrail | .dScan => true
  | .idle | .tStart | .tAddr | .tToggle | .tEnd | .dStart | .dSent | .dEnd _ => false

theorem nibble_pos {k : Nibble} : 1 ≤ k.toNat ↔ k ≠ 0#4 := by
  rw [Nat.one_le_iff_ne_zero, Ne, Ne, ← BitVec.toNat_inj]; rfl

theorem nibble_succ_toNat {k : Nibble} (hk : k.toNat < 15) : (k + 1#4).toNat = k.toNat + 1 := by
  bv_omega

theorem nibble_pred_lt {k : Nibble} (hk : k ≠ 0#4) : (k - 1#4).toNat < k.toNat := by
  bv_omega

/-- R88: `p - 1` without wrapping, if `p` is not zero. -/
theorem leadingPads_toNat {p : Nibble} (hp : 1 ≤ p.toNat) : (leadingPads p).toNat = p.toNat - 1 := by
  rw [leadingPads]
  bv_omega

/-- R90: `N - p + 1` without wrapping, if `1 <= p <= N`. -/
theorem trailingCycles_toNat {p n : Nibble} (hp : 1 ≤ p.toNat) (hn : p.toNat ≤ n.toNat) :
    (trailingCycles p n).toNat = n.toNat - p.toNat + 1 := by
  rw [trailingCycles]
  bv_omega

/-- The counter's condition is its range between two pairs, and inside a pair of a counting row that it is not zero. -/
theorem State.counterOk_iff {s : State} : s.counterOk ↔
    (pairDone s).counterOk ∧ (s.engine.half = .data → s.engine.fsm.countsPairs = true → s.engine.cnt ≠ 0#4) := by
  unfold State.counterOk
  rcases hq : s.engine.fsm with _ | _ | _ | _ | _ | _ | _ | _ | _ | _ | _ | _ <;>
    simp [hq, nibble_pos, Fsm.countsPairs]

/-! Between two pairs the counter's condition is its range alone. -/

theorem State.counterOk_tLead (s : State) (hf : s.engine.fsm = .tLead) (hh : s.engine.half = .cmd) :
    s.counterOk ↔ s.engine.cnt.toNat ≤ s.engine.posQ.toNat - 1 := by simp [State.counterOk, hf, hh]

theorem State.counterOk_tTrail (s : State) (hf : s.engine.fsm = .tTrail) (hh : s.engine.half = .cmd) :
    s.counterOk ↔ s.engine.cnt.toNat ≤ s.engine.totQ.toNat - s.engine.posQ.toNat + 1 := by
  simp [State.counterOk, hf, hh]

theorem State.counterOk_dScan (s : State) (hf : s.engine.fsm = .dScan) (hh : s.engine.half = .cmd) :
    s.counterOk ↔ s.engine.cnt.toNat ≤ s.params.calMax := by simp [State.counterOk, hf, hh]

/-! ### The invariant: a move inside an operation -/

/-- A move inside an operation that writes neither `STATUS` nor `CAL` keeps the invariant, if it leaves `cs_n`, the half of the
pair and the counter as the engine step it goes to wants them. -/
theorem State.Inv.of_running {s t : State} (h : s.Inv) (hm : MoveFrame s t) (hst : t.status = s.status)
    (hcal : t.cal = s.cal) (hop : t.engine.fsm.op = s.engine.fsm.op) (hlevel : t.csN = t.engine.fsm.level)
    (hhalf : t.engine.half = .data → t.engine.fsm.exchanges = true) (hcnt : t.counterOk) : t.Inv where
  busy_iff_running := by rw [hst, h.busy_iff_running, Ne, Ne, ← Fsm.op_eq_none, ← Fsm.op_eq_none, hop]
  cs_level := hlevel
  busy_not_done := hst ▸ h.busy_not_done
  result_cleared := hst ▸ h.result_cleared
  pass_is_ok := hst ▸ h.pass_is_ok
  operands_ok := by
    rw [Engine.operandsOk_iff, hop, hm.opQ, hm.posQ, hm.totQ, ← Engine.operandsOk_iff]
    exact h.operands_ok
  half_ok := hhalf
  counter_ok := hcnt
  cal_ok := by rw [hst, hcal, hm.params]; exact h.cal_ok
  bring_up := by rw [hm.setup, hm.params]; exact h.bring_up
  busy_after_bring_up := by rw [hst, hm.setup]; exact h.busy_after_bring_up
  env_wf := hm.env_wf h.env_wf

theorem xfer_engine {tx rx : Byte} {s t : State} (h : xfer tx s = some (rx, t)) : t.engine = s.engine := by
  obtain ⟨-, -, -, -, -, he, -⟩ := xfer_frame h
  exact he

theorem xfer_inv {tx rx : Byte} {s t : State} (h : s.Inv) (hx : xfer tx s = some (rx, t)) : t.Inv := by
  obtain ⟨hp, hst, hecho, hcal, hcs, heng, -⟩ := xfer_frame hx
  have hcnt : t.counterOk := by
    unfold State.counterOk
    rw [heng, hp, hecho]
    exact h.counter_ok
  refine h.of_running (xfer_moveFrame hx) hst hcal ?_ ?_ ?_ hcnt <;> rw [heng]
  · rw [hcs, h.cs_level]
  · exact h.half_ok

/-- R94: the first byte of a pair is held; where the row counts pairs, its counter is not zero. -/
theorem holdFirst_inv {s : State} (h : s.Inv) (hx : s.engine.fsm.exchanges = true)
    (hc : s.engine.fsm.countsPairs = true → s.engine.cnt ≠ 0#4) (rx : Byte) : (holdFirst rx s).Inv :=
  h.of_running (holdFirst_moveFrame rx s) rfl rfl rfl h.cs_level (fun _ => hx)
    (State.counterOk_iff.2 ⟨(State.counterOk_iff.1 h.counter_ok).1, fun _ => hc⟩)

theorem pairDone_inv {s : State} (h : s.Inv) : (pairDone s).Inv :=
  h.of_running (pairDone_moveFrame s) rfl rfl rfl h.cs_level nofun (State.counterOk_iff.1 h.counter_ok).1

/-- A pair exchange keeps the invariant if what its row does before and after the exchange keeps it. -/
theorem pairMove_inv {f : Frame} {opening : State → State} {closing : Frame → State → State} {s t : State}
    (h : s.Inv) (hx : s.engine.fsm.exchanges = true)
    (hopen : s.engine.half = .cmd → (opening s).Inv ∧ (opening s).engine.fsm = s.engine.fsm ∧
      (s.engine.fsm.countsPairs = true → (opening s).engine.cnt ≠ 0#4))
    (hclose : ∀ r u, u.Inv → u.engine.fsm = s.engine.fsm → u.engine.half = .cmd →
      (s.engine.fsm.countsPairs = true → u.engine.cnt ≠ 0#4) → (closing r u).Inv)
    (hm : pairMove f opening closing s = some t) : t.Inv := by
  rcases pairMove_eq_some hm with ⟨rx, u, hh, hu, rfl⟩ | ⟨rx, u, hh, hu, rfl⟩ <;> have he := xfer_engine hu
  · obtain ⟨hi, hof, hoc⟩ := hopen hh
    refine holdFirst_inv (xfer_inv hi hu) ?_ ?_ rx <;> rw [he, hof]
    · exact hx
    · exact hoc
  · refine hclose _ _ (pairDone_inv (xfer_inv h hu)) (by rw [pairDone_engine, he]) rfl ?_
    rw [pairDone_engine, he]
    exact (State.counterOk_iff.1 h.counter_ok).2 hh

/-! ### The invariant: the rows of R94 -/

section Rows
variable {s : State} (h : s.Inv)
include h

theorem startTransact_inv (hf : s.engine.fsm = .tStart) : (goto .tAddr (csLow s)).Inv :=
  h.of_running ((csLow_moveFrame s).trans (goto_moveFrame _ _)) rfl rfl (by rw [hf]; rfl) rfl (fun _ => rfl) trivial

theorem closeAddr_inv (hf : s.engine.fsm = .tAddr) (hh : s.engine.half = .cmd) (r : Frame) : (closeAddr r s).Inv := by
  obtain ⟨hp, -⟩ := h.operands_range (by rw [hf]; rfl)
  exact h.of_running (closeAddr_moveFrame r s) rfl rfl (by rw [hf]; rfl) (h.cs_level.trans (by rw [hf]; rfl)) (fun _ => rfl)
    ((State.counterOk_tLead (closeAddr r s) rfl hh).2 (leadingPads_toNat hp).le)

theorem closeLead_inv (hf : s.engine.fsm = .tLead) (hh : s.engine.half = .cmd) (hc : s.engine.cnt ≠ 0#4) (r : Frame) :
    (closeLead r s).Inv := by
  have hk := (State.counterOk_tLead s hf hh).1 h.counter_ok
  exact h.of_running (closeLead_moveFrame r s) rfl rfl rfl h.cs_level h.half_ok
    ((State.counterOk_tLead (closeLead r s) hf hh).2 ((nibble_pred_lt hc).le.trans hk))

/-- The counter of a pad row is used up, which it is only between two pairs: the row is left without an exchange. -/
theorem padsDone_inv {q : Fsm} (hn : s.engine.fsm.countsPairs = true) (hc : s.engine.cnt = 0#4)
    (hop : q.op = s.engine.fsm.op) (hlevel : s.engine.fsm.level = q.level) (hk : (goto q s).counterOk) : (goto q s).Inv :=
  h.of_running (goto_moveFrame q s) rfl rfl hop (h.cs_level.trans hlevel)
    (fun hd => ((State.counterOk_iff.1 h.counter_ok).2 hd hn hc).elim) hk

theorem toggle_inv (hf : s.engine.fsm = .tToggle) : (toggle s).Inv := by
  obtain ⟨hp, hn⟩ := h.operands_range (by rw [hf]; rfl)
  have hm : MoveFrame s (toggle s) :=
    (((csHigh_moveFrame s).trans (csLow_moveFrame _)).trans (setCnt_moveFrame _ _)).trans (goto_moveFrame _ _)
  exact h.of_running hm rfl rfl (by rw [hf]; rfl) rfl (fun _ => rfl)
    ((State.counterOk_tTrail (toggle s) rfl (h.half_cmd (by rw [hf]; rfl))).2 (trailingCycles_toNat hp hn).le)

theorem closeTrail_inv (hf : s.engine.fsm = .tTrail) (hh : s.engine.half = .cmd) (hc : s.engine.cnt ≠ 0#4) (r : Frame) :
    (closeTrail r s).Inv := by
  have hk := (State.counterOk_tTrail s hf hh).1 h.counter_ok
  exact h.of_running (closeTrail_moveFrame r s) rfl rfl rfl h.cs_level h.half_ok
    ((State.counterOk_tTrail (closeTrail r s) hf hh).2 ((nibble_pred_lt hc).le.trans hk))

/-! ### The invariant: the rows of R114 -/

theorem startDetect_inv (hf : s.engine.fsm = .dStart) : (goto .dSent (setCnt 0#4 (csLow s))).Inv :=
  h.of_running (((csLow_moveFrame s).trans (setCnt_moveFrame _ _)).trans (goto_moveFrame _ _)) rfl rfl
    (by rw [hf]; rfl) rfl (fun _ => rfl) rfl

theorem closeSentinel_inv (hf : s.engine.fsm = .dSent) (hh : s.engine.half = .cmd) (r : Frame) :
    (closeSentinel r s).Inv := by
  have hk : s.engine.cnt = 0#4 := by simpa [State.counterOk, hf] using h.counter_ok
  have hk' : s.engine.cnt.toNat ≤ s.params.calMax := by rw [hk]; exact Nat.zero_le _
  exact h.of_running (closeSentinel_moveFrame r s) rfl rfl (by rw [hf]; rfl) (h.cs_level.trans (by rw [hf]; rfl))
    (fun _ => rfl) ((State.counterOk_dScan (closeSentinel r s) rfl hh).2 hk')

/-- R115: with a pair left in the bound, counting it neither passes the bound nor wraps the counter. -/
theorem openScan_inv (hf : s.engine.fsm = .dScan) (hh : s.engine.half = .cmd) (hx : scanExhausted s = false) :
    (openScan s).Inv ∧ (openScan s).engine.cnt ≠ 0#4 := by
  have hl := h.calMax_le (by simp [hf])
  have hlt : s.engine.cnt.toNat < s.params.calMax := by simpa [scanExhausted, hh] using hx
  have hcnt : (openScan s).engine.cnt.toNat = s.engine.cnt.toNat + 1 :=
    nibble_succ_toNat (by omega)
  refine ⟨h.of_running (setCnt_moveFrame _ s) rfl rfl rfl h.cs_level h.half_ok ?_, nibble_pos.1 (by omega)⟩
  have hfsm : (openScan s).engine.fsm = .dScan := hf
  simp only [State.counterOk, hfsm, hcnt]
  exact ⟨hlt, fun _ => by omega⟩

theorem closeScan_inv (hf : s.engine.fsm = .dScan) (hh : s.engine.half = .cmd) (hc : s.engine.cnt ≠ 0#4) (r : Frame) :
    (closeScan r s).Inv := by
  have hk := (State.counterOk_dScan s hf hh).1 h.counter_ok
  have hm := closeScan_moveFrame r s
  unfold closeScan at hm ⊢
  split at hm <;> rename_i hr
  · rw [if_pos hr]
    exact h.of_running hm rfl rfl (by rw [hf]; rfl) (h.cs_level.trans (by rw [hf]; rfl))
      (fun hd => by simp [hh] at hd) ⟨nibble_pos.2 hc, hk, hr⟩
  · rw [if_neg hr]
    exact h.of_running hm rfl rfl rfl h.cs_level h.half_ok ((State.counterOk_dScan (capture r s) hf hh).2 hk)

theorem scanDone_inv (hf : s.engine.fsm = .dScan) (hx : scanExhausted s = true) : (goto (.dEnd false) s).Inv := by
  simp only [scanExhausted, Bool.and_eq_true, decide_eq_true_eq] at hx
  obtain ⟨hh, hx⟩ := hx
  have hk := (State.counterOk_dScan s hf hh).1 h.counter_ok
  exact h.of_running (goto_moveFrame _ s) rfl rfl (by rw [hf]; rfl) (h.cs_level.trans (by rw [hf]; rfl))
    (fun hd => by simp [hh] at hd) (le_antisymm hk hx)

end Rows

/-! ### The invariant: begin and end of an operation -/

/-- R15, R31: finishing with the engine idle and `cs_n` high keeps the invariant, with `CAL_OK` kept, cleared, or set on two
equal counts in the scan's range. -/
theorem State.Inv.of_finished {s t : State} {k : Kind} {b : Bool} (h : s.Inv) (hm : MoveFrame s t)
    (hst : t.status = Status.finish k { s.status with calOk := b }) (hidle : t.engine.fsm = .idle)
    (hhalf : t.engine.half = .cmd) (hcs : t.csN = .high)
    (hcal : b = true → t.cal.detected = t.cal.expected ∧ 1 ≤ t.cal.detected.toNat ∧ t.cal.detected.toNat ≤ s.params.calMax) :
    t.Inv where
  busy_iff_running := by simp [hst, hidle, Status.finish]
  cs_level := by rw [hcs, hidle]; rfl
  busy_not_done := by simp [hst, Status.finish]
  result_cleared := by simp [hst, Status.finish]
  pass_is_ok := by simp [hst, Status.finish]
  operands_ok := by simp [Engine.operandsOk, hidle]
  half_ok := by simp [hhalf]
  counter_ok := by simp [State.counterOk, hidle]
  cal_ok := by rw [hst, hm.params]; exact hcal
  bring_up := by rw [hm.setup, hm.params]; exact h.bring_up
  busy_after_bring_up := by simp [hst, Status.finish]
  env_wf := hm.env_wf h.env_wf

theorem endTransact_inv {s : State} (h : s.Inv) (hf : s.engine.fsm = .tEnd) : (endTransact s).Inv :=
  h.of_finished (b := s.status.calOk) (((csHigh_moveFrame s).trans (verifyEcho_moveFrame _ _)).trans (goto_moveFrame _ _)) rfl
    rfl (h.half_cmd (by rw [hf]; rfl)) rfl h.cal_ok

/-- R111, R112: `CAL_OK` is set only on the count found, and only when it is the expected one. -/
theorem endDetect_inv {s : State} {found : Bool} (h : s.Inv) (hf : s.engine.fsm = .dEnd found) :
    (endDetect found s).Inv := by
  have hh := h.half_cmd (by rw [hf]; rfl)
  have hm := ((csHigh_moveFrame s).trans (reportCount_moveFrame found s.engine.cnt s.engine.totQ _)).trans
    (goto_moveFrame .idle _)
  unfold endDetect
  cases found with
  | true =>
    obtain ⟨h1, hmax, -⟩ : 1 ≤ s.engine.cnt.toNat ∧ s.engine.cnt.toNat ≤ s.params.calMax ∧ _ := by
      have hk := h.counter_ok
      simpa only [State.counterOk, hf] using hk
    by_cases he : s.engine.cnt = s.engine.totQ
    · rw [reportCount, if_pos rfl, if_pos he] at hm ⊢
      exact h.of_finished (b := true) hm rfl rfl hh rfl fun _ => ⟨he, h1, hmax⟩
    · rw [reportCount, if_pos rfl, if_neg he] at hm ⊢
      exact h.of_finished (b := false) hm rfl rfl hh rfl nofun
  | false => exact h.of_finished (b := false) hm rfl rfl hh rfl nofun

/-- Every move of the engine keeps the invariant. -/
theorem engineStep_inv {s t : State} (h : s.Inv) (hm : engineStep s = some t) : t.Inv := by
  rcases engineStep_eq_some hm with ⟨hf, rfl⟩ | ⟨hf, hp⟩ | ⟨hf, hc, rfl⟩ | ⟨hf, hc, hp⟩ | ⟨hf, rfl⟩ | ⟨hf, hc, rfl⟩ |
    ⟨hf, hc, hp⟩ | ⟨hf, rfl⟩ | ⟨hf, rfl⟩ | ⟨hf, hp⟩ | ⟨hf, hx, rfl⟩ | ⟨hf, hx, hp⟩ | ⟨found, hf, rfl⟩
  · exact startTransact_inv h hf
  · exact pairMove_inv h (by rw [hf]; rfl) (fun _ => ⟨h, rfl, by simp [hf, Fsm.countsPairs]⟩)
      (fun r u hu hq hh _ => closeAddr_inv hu (hq.trans hf) hh r) hp
  · exact padsDone_inv h (by rw [hf]; rfl) hc (by rw [hf]; rfl) (by rw [hf]; rfl) trivial
  · exact pairMove_inv h (by rw [hf]; rfl) (fun _ => ⟨h, rfl, fun _ => hc⟩)
      (fun r u hu hq hh hn => closeLead_inv hu (hq.trans hf) hh (hn (by rw [hf]; rfl)) r) hp
  · exact toggle_inv h hf
  · exact padsDone_inv h (by rw [hf]; rfl) hc (by rw [hf]; rfl) (by rw [hf]; rfl) trivial
  · exact pairMove_inv h (by rw [hf]; rfl) (fun _ => ⟨h, rfl, fun _ => hc⟩)
      (fun r u hu hq hh hn => closeTrail_inv hu (hq.trans hf) hh (hn (by rw [hf]; rfl)) r) hp
  · exact endTransact_inv h hf
  · exact startDetect_inv h hf
  · exact pairMove_inv h (by rw [hf]; rfl) (fun _ => ⟨h, rfl, by simp [hf, Fsm.countsPairs]⟩)
      (fun r u hu hq hh _ => closeSentinel_inv hu (hq.trans hf) hh r) hp
  · exact scanDone_inv h hf hx
  · exact pairMove_inv h (by rw [hf]; rfl)
      (fun hh => ⟨(openScan_inv h hf hh hx).1, rfl, fun _ => (openScan_inv h hf hh hx).2⟩)
      (fun r u hu hq hh hn => closeScan_inv hu (hq.trans hf) hh (hn (by rw [hf]; rfl)) r) hp
  · exact endDetect_inv h hf

theorem advance_inv {s : State} (h : s.Inv) : (advance s).Inv := by
  unfold advance
  cases hm : engineStep s with
  | none => exact h
  | some t => exact engineStep_inv h hm

/-! ### The invariant: port events, commands and steps -/

/-- R138, R139: a reset keeps the invariant. -/
theorem resetFramer_inv {s : State} (h : s.Inv) : (resetFramer s).Inv where
  busy_iff_running := by simp [Status.reset, Engine.reset]
  cs_level := rfl
  busy_not_done := nofun
  result_cleared := fun _ => ⟨rfl, rfl⟩
  pass_is_ok := nofun
  operands_ok := trivial
  half_ok := nofun
  counter_ok := trivial
  cal_ok := nofun
  bring_up := h.bring_up
  busy_after_bring_up := nofun
  env_wf := by
    rw [resetFramer_env]
    split
    · exact Env.disturbed_wf h.env_wf _
    · exact h.env_wf

/-- R9, R140: the bring-up hook keeps the invariant where it is not refused. -/
theorem configureBus_inv {s : State} (h : s.Inv) (hl : s.params.legal = true) : (configureBus s).Inv :=
  { h with bring_up := fun _ => hl, busy_after_bring_up := fun _ => rfl }

theorem turn_inv {s t : State} (h : s.Inv) (ht : turn s = some t) : t.Inv := by
  obtain ⟨-, ⟨-, hm⟩ | ⟨_, _, _, -, rfl⟩ | ⟨_, _, _, _, -, -, rfl⟩ | ⟨_, _, _, -, rfl⟩ | ⟨rest, -, rfl⟩ | ⟨rest, -, rfl⟩⟩ :=
    turn_eq_some ht
  · exact engineStep_inv h hm
  · exact h.of_forgetHost_eq rfl
  · exact h.of_forgetHost_eq rfl
  · exact h.of_forgetHost_eq rfl
  · exact advance_inv (h.of_forgetHost_eq (t := { s with port := rest }) rfl)
  · exact resetFramer_inv (h.of_forgetHost_eq (t := { s with port := rest }) rfl)

theorem runOperation_inv {s : State} (h : s.Inv) : (runOperation s).Inv := runTurns_induction (fun _ _ => turn_inv) _ h

theorem State.Inv.idle {s : State} (h : s.Inv) (hb : s.status.busy = false) : s.engine.fsm = .idle := by
  by_contra hf
  rw [h.busy_iff_running.2 hf] at hb
  cases hb

/-- R77: acceptance keeps the invariant. -/
theorem accept_inv {s : State} (h : s.Inv) : (accept s).Inv :=
  { h with
    busy_not_done := fun _ => rfl
    result_cleared := fun _ => ⟨rfl, rfl⟩
    pass_is_ok := nofun }

/-- R74, R75, R85: a result without an operation keeps the invariant. -/
theorem finish_inv {s : State} (h : s.Inv) (hb : s.status.busy = false) (k : Kind) : (finish k s).Inv := by
  have hf := h.idle hb
  exact h.of_finished (b := s.status.calOk) (finish_moveFrame k s) rfl hf (h.half_cmd (by rw [hf]; rfl))
    (h.cs_level.trans (by rw [hf]; rfl)) h.cal_ok

/-- R78: an accepted command whose operands are latched begins its operation within the invariant. -/
theorem begin_inv {s : State} (h : s.Inv) (hready : s.ready) (e : Engine) (hq : e.fsm = .tStart ∨ e.fsm = .dStart)
    (hh : e.half = .cmd) (hop : e.operandsOk) : (setBusy (accept { s with engine := e })).Inv :=
  { h with
    busy_iff_running := by rcases hq with hq | hq <;> simp [hq]
    cs_level := by
      have hcs := h.cs_level
      rw [h.idle hready.2] at hcs
      rcases hq with hq | hq <;> exact hcs.trans (by simp [hq, Fsm.level])
    busy_not_done := fun _ => rfl
    result_cleared := fun _ => ⟨rfl, rfl⟩
    pass_is_ok := nofun
    operands_ok := hop
    half_ok := by simp [hh]
    counter_ok := by rcases hq with hq | hq <;> simp [State.counterOk, hq]
    busy_after_bring_up := fun _ => hready.1 }

theorem transactBody_inv {s : State} (h : s.Inv) (hready : s.ready) (p n : Nibble) (c d : Byte) :
    (transactBody p n c d (accept s)).Inv := by
  unfold transactBody
  split
  · exact finish_inv (accept_inv h) hready.2 _
  · rename_i ha
    exact runOperation_inv (begin_inv h hready (latchTransact p n c d s).engine (.inl rfl) rfl ⟨rfl, by simpa using ha⟩)

theorem detectBody_inv {s : State} (h : s.Inv) (hready : s.ready) (e : Nibble) : (detectBody e (accept s)).Inv :=
  runOperation_inv (begin_inv h hready (latchDetect e s).engine (.inr rfl) rfl rfl)

theorem writeCommand_inv {w : Word} {s t : State} (h : s.Inv) (hw : writeCommand exec w s = .next t) : t.Inv := by
  obtain ⟨hs, ⟨-, rfl⟩ | ⟨hb, rfl | ⟨p, n, c, d, rfl⟩ | ⟨e, rfl⟩⟩⟩ := writeCommand_eq_next hw
  · exact h.of_forgetHost_eq rfl
  · exact finish_inv (accept_inv h) hb _
  · exact transactBody_inv h ⟨hs, hb⟩ p n c d
  · exact detectBody_inv h ⟨hs, hb⟩ e

/-- Settles O45: by the cases of a step; the engine's moves row by row, a whole operation by induction on its turns. -/
theorem stepKeepsTheInvariant : Obligations.StepKeepsTheInvariant := by
  intro s t h hstep
  have hport (rest : List PortEvent) : ({ s with port := rest } : State).Inv := h.of_forgetHost_eq rfl
  rcases portStep_eq_next hstep with ⟨-, rfl⟩ | ⟨_, _, v, rest, -, -, ⟨-, hc⟩ | ⟨-, rfl⟩⟩ | ⟨_, _, _, -, -, rfl⟩ |
    ⟨_, -, ⟨-, rfl⟩ | ⟨-, rfl⟩⟩ | ⟨rest, -, rfl⟩ | ⟨rest, -, rfl⟩ | ⟨rest, -, -, hl, rfl⟩
  · exact advance_inv h
  · exact writeCommand_inv (hport rest) hc
  · exact hport _
  · exact h.of_forgetHost_eq rfl
  · exact advance_inv h
  · exact h.of_forgetHost_eq rfl
  · exact advance_inv (hport rest)
  · exact resetFramer_inv (hport rest)
  · exact configureBus_inv (hport rest) hl

end Sys2Proof.Machine

/-! Proofs of O6, O7, O11, O12, O13, O27, O42, O44, O46 and O48 (family `10_state`): the registers and their words, framing by
chip select, the calibration, and the registers that are not read. -/

namespace Sys2Proof.Machine

/-! ### The words of the registers -/

theorem Status.word_getLsbD (f : Status) {i : Nat} (h : i < 32) :
    f.word.getLsbD i =
      if i = 0 then f.busy else if i = 1 then f.done else if i = 2 then f.pass else if i = 3 then f.overrun
      else if i < 7 then f.kind.code.getLsbD (i - 4) else if i = 7 then f.calOk else false := by
  simp only [Status.word, BitVec.getLsbD_append]
  interval_cases i <;> simp

theorem Echo.word_getLsbD (e : Echo) {i : Nat} (h : i < 32) :
    e.word.getLsbD i = if i < 8 then e.data.getLsbD i else if i < 16 then e.cmd.getLsbD (i - 8) else false := by
  simp only [Echo.word, BitVec.getLsbD_append]
  interval_cases i <;> simp

theorem Cal.word_getLsbD (c : Cal) {i : Nat} (h : i < 32) :
    c.word.getLsbD i = if i < 4 then c.detected.getLsbD i else if i < 8 then c.expected.getLsbD (i - 4) else false := by
  simp only [Cal.word, BitVec.getLsbD_append]
  interval_cases i <;> simp

/-- A field of a word is known by its bits. -/
theorem field_eq_of_getLsbD {w : Word} {start len : Nat} {x : BitVec len}
    (h : ∀ i, i < len → w.getLsbD (start + i) = x.getLsbD i) : w.extractLsb' start len = x :=
  BitVec.eq_of_getLsbD_eq fun i hi => by rw [BitVec.getLsbD_extractLsb', decide_eq_true hi, Bool.true_and, h i hi]

theorem Status.word_fields (f : Status) :
    f.word.getLsbD 0 = f.busy ∧ f.word.getLsbD 1 = f.done ∧ f.word.getLsbD 2 = f.pass ∧ f.word.getLsbD 3 = f.overrun ∧
      f.word.extractLsb' 4 3 = f.kind.code ∧ f.word.getLsbD 7 = f.calOk ∧ f.word.extractLsb' 8 24 = 0#24 := by
  have hbit {i : Nat} (hi : i < 32) := f.word_getLsbD hi
  refine ⟨hbit (by decide), hbit (by decide), hbit (by decide), hbit (by decide), ?_, hbit (by decide), ?_⟩ <;>
    refine field_eq_of_getLsbD fun i hi => ?_ <;> rw [hbit (by omega)] <;> interval_cases i <;> rfl

theorem Echo.word_fields (e : Echo) :
    e.word.extractLsb' 0 8 = e.data ∧ e.word.extractLsb' 8 8 = e.cmd ∧ e.word.extractLsb' 16 16 = 0#16 := by
  refine ⟨?_, ?_, ?_⟩ <;> refine field_eq_of_getLsbD fun i hi => ?_ <;> rw [e.word_getLsbD (by omega)] <;>
    interval_cases i <;> rfl

theorem Cal.word_fields (c : Cal) :
    c.word.extractLsb' 0 4 = c.detected ∧ c.word.extractLsb' 4 4 = c.expected ∧ c.word.extractLsb' 8 24 = 0#24 := by
  refine ⟨?_, ?_, ?_⟩ <;> refine field_eq_of_getLsbD fun i hi => ?_ <;> rw [c.word_getLsbD (by omega)] <;>
    interval_cases i <;> rfl

theorem Kind.code_not_reserved (k : Kind) : k.code ≠ 6#3 ∧ k.code ≠ 7#3 := by cases k <;> decide

/-- Settles O6: each register's word is known bit by bit. -/
theorem registerWordsHoldTheFields : Obligations.RegisterWordsHoldTheFields :=
  ⟨Status.word_fields, ⟨rfl, rfl, rfl, rfl, rfl, rfl, Kind.code_not_reserved⟩, Echo.word_fields, Cal.word_fields⟩

/-! ### Reset -/

/-- Settles O7: `State.reset` evaluates to the values of R41. -/
theorem resetLeavesTheResetValues : Obligations.ResetLeavesTheResetValues :=
  ⟨rfl, rfl, rfl, rfl, rfl, rfl⟩

/-- Settles O44: the framer is idle with nothing to report, and its environment at power-up is well formed. -/
theorem resetStateMeetsTheInvariant : Obligations.ResetStateMeetsTheInvariant where
  busy_iff_running := by simp [State.reset, Status.reset, Engine.reset]
  cs_level := rfl
  busy_not_done := nofun
  result_cleared := fun _ => ⟨rfl, rfl⟩
  pass_is_ok := nofun
  operands_ok := trivial
  half_ok := nofun
  counter_ok := trivial
  cal_ok := nofun
  bring_up := nofun
  busy_after_bring_up := nofun
  env_wf := Env.powerUp_wf

/-! ### Host accesses -/

/-- R24: a write of the interface anywhere but to `CMD` has no effect. -/
theorem step_of_write {s : State} {off : Nat} {v : Word} {rest : List PortEvent} (hp : s.port = .write off 4 v :: rest)
    (ha : accessAllowed off 4 = true) (ho : off ≠ 0) : step s = .next { s with port := rest } := by
  simp only [step, portStep, hp, if_pos ha, if_neg ho]

theorem step_of_read {s : State} {off : Nat} {rest : List PortEvent} (hp : s.port = .read off 4 :: rest)
    (ha : accessAllowed off 4 = true) : step s = .next (hostRead off { s with port := rest }) := by
  simp only [step, portStep, hp, if_pos ha]

/-- R34: only `ECHO` and `CAL` read as unspecified, and only while busy. -/
theorem readUnspecified_eq_false {off : Nat} {s : State} (h : s.status.busy = false ∨ off ≠ 8 ∧ off ≠ 12) :
    readUnspecified off s = false := by
  rcases h with hb | ⟨h8, h12⟩
  · simp [readUnspecified, hb]
  · simp [readUnspecified, h8, h12]

/-- R45: a read of a specified value changes nothing but the log of reads. -/
theorem step_of_specified_read {s : State} {off : Nat} {rest : List PortEvent} (hp : s.port = .read off 4 :: rest)
    (ha : accessAllowed off 4 = true) (h : s.status.busy = false ∨ off ≠ 8 ∧ off ≠ 12) :
    step s = .next { s with port := rest, reads := s.reads ++ [(off, readValue off s)] } := by
  have hu : readUnspecified off { s with port := rest } = false := readUnspecified_eq_false h
  rw [step_of_read hp ha, hostRead, if_neg (by simp [hu])]
  rfl

/-- R34: a read of `ECHO` or `CAL` while busy draws a free word. -/
theorem step_of_unspecified_read {s : State} {off : Nat} {rest : List PortEvent} (hp : s.port = .read off 4 :: rest)
    (ha : accessAllowed off 4 = true) (h : readUnspecified off s = true) :
    step s = .next { s with
      port := rest, reads := s.reads ++ [(off, Config.freeHostWord s.readDraws)], readDraws := s.readDraws + 1 } := by
  have hu : readUnspecified off { s with port := rest } = true := h
  rw [step_of_read hp ha, hostRead, readValue, if_pos hu, if_pos hu]

theorem readValue_cmd (s : State) : readValue 0 s = 0x00000000#32 := by simp [readValue, readUnspecified]

theorem readValue_status (s : State) : readValue 4 s = s.status.word := by simp [readValue, readUnspecified]

theorem readValue_echo {s : State} (hb : s.status.busy = false) : readValue 8 s = s.echo.word := by
  simp [readValue, readUnspecified, hb]

theorem readValue_cal {s : State} (hb : s.status.busy = false) : readValue 12 s = s.cal.word := by
  simp [readValue, readUnspecified, hb]

/-- Settles O11: the three writes are no write to `CMD`, and `CMD` reads as 0. -/
theorem readOnlyRegistersIgnoreWritesAndCmdReadsZero : Obligations.ReadOnlyRegistersIgnoreWritesAndCmdReadsZero := by
  intro s rest v
  refine ⟨fun hp => step_of_write hp rfl (by decide), fun hp => step_of_write hp rfl (by decide),
    fun hp => step_of_write hp rfl (by decide), fun hp => ?_⟩
  rw [step_of_specified_read hp rfl (.inr (by decide)), readValue_cmd]

theorem step_of_status_read {s : State} {rest : List PortEvent} (hp : s.port = .read 4 4 :: rest) :
    step s = .next { s with port := rest, reads := s.reads ++ [(4, s.status.word)] } := by
  rw [step_of_specified_read hp rfl (.inr (by decide)), readValue_status]

/-- Settles O12: all three values are specified, `STATUS` always and the other two while idle. -/
theorem readsReturnTheRegisters : Obligations.ReadsReturnTheRegisters := by
  refine fun s rest => ⟨step_of_status_read, fun hp hb => ?_, fun hp hb => ?_⟩
  · rw [step_of_specified_read hp rfl (.inl hb), readValue_echo hb]
  · rw [step_of_specified_read hp rfl (.inl hb), readValue_cal hb]

/-- Settles O13: while busy the values of `ECHO` and `CAL` are unspecified, that of `STATUS` is not. -/
theorem readsWhileBusyAreUnspecified : Obligations.ReadsWhileBusyAreUnspecified := by
  refine fun s rest hb => ⟨fun off ho hp => ⟨_, ?_, rfl⟩, step_of_status_read⟩
  rcases ho with rfl | rfl <;> exact step_of_unspecified_read hp rfl (by simp [readUnspecified, hb])

/-! ### `OVERRUN` -/

/-- Settles O48: by the cases of a step; no move of the engine writes `OVERRUN`. -/
theorem overrunChangesOnlyByCommandsAndReset : Obligations.OverrunChangesOnlyByCommandsAndReset := by
  intro s t h hcmd hreset
  rcases portStep_eq_next h with ⟨-, rfl⟩ | ⟨_, width, v, rest, hp, -, ⟨rfl, -⟩ | ⟨-, rfl⟩⟩ | ⟨_, _, _, -, -, rfl⟩ |
    ⟨_, -, ⟨-, rfl⟩ | ⟨-, rfl⟩⟩ | ⟨_, -, rfl⟩ | ⟨rest, hp, -⟩ | ⟨_, -, -, -, rfl⟩
  · exact (advance_moveFrame s).overrun
  · exact absurd hp (hcmd width v rest)
  · rfl
  · rfl
  · exact (advance_moveFrame s).overrun
  · rfl
  · exact (advance_moveFrame _).overrun
  · exact absurd hp (hreset rest)
  · rfl

/-! ### Framing of bus events by chip select -/

theorem framed_append (l : Level) (es fs : List BusEvent) : framed l (es ++ fs) = (framed l es).bind (framed · fs) := by
  induction es generalizing l with
  | nil => cases l <;> rfl
  | cons e es ih => cases l <;> cases e <;> simp [framed, ih]

/-- From `s` to `t` bus events were added that, followed from the level of `cs_n` in `s`, are framed by chip select and end at
its level in `t`. -/
def FramedTo (s t : State) : Prop := ∃ new, t.trace = s.trace ++ new ∧ framed s.csN new = some t.csN

theorem FramedTo.of_no_event {s t : State} (htrace : t.trace = s.trace) (hcs : t.csN = s.csN) : FramedTo s t :=
  ⟨[], by rw [htrace, List.append_nil], by rw [hcs, framed]⟩

theorem FramedTo.trans {s t u : State} (h : FramedTo s t) (k : FramedTo t u) : FramedTo s u := by
  obtain ⟨es, ht, hes⟩ := h
  obtain ⟨fs, hu, hfs⟩ := k
  exact ⟨es ++ fs, by rw [hu, ht, List.append_assoc], by rw [framed_append, hes]; exact hfs⟩

theorem csLow_framed {s : State} (h : s.csN = .high) : FramedTo s (csLow s) := ⟨[.csLow], rfl, by rw [h]; rfl⟩

theorem csHigh_framed {s : State} (h : s.csN = .low) : FramedTo s (csHigh s) := ⟨[.csHigh], rfl, by rw [h]; rfl⟩

theorem xfer_framed {tx rx : Byte} {s t : State} (h : s.csN = .low) (hx : xfer tx s = some (rx, t)) : FramedTo s t := by
  obtain ⟨-, -, -, -, hcs, -, -, -, -, -, htrace⟩ := xfer_frame hx
  exact ⟨[.xfer tx rx], htrace, by rw [hcs, h]; rfl⟩

/-- With `cs_n` low, a pair exchange is framed if its row adds no bus event of its own. -/
theorem pairMove_framed {f : Frame} {opening : State → State} {closing : Frame → State → State} {s t : State}
    (hlow : s.csN = .low) (h : pairMove f opening closing s = some t)
    (ho : (opening s).trace = s.trace ∧ (opening s).csN = s.csN)
    (hc : ∀ r u, (closing r u).trace = u.trace ∧ (closing r u).csN = u.csN) : FramedTo s t := by
  rcases pairMove_eq_some h with ⟨rx, u, -, hx, rfl⟩ | ⟨rx, u, -, hx, rfl⟩
  · have hx' := xfer_framed (ho.2.trans hlow) hx
    exact ((FramedTo.of_no_event ho.1 ho.2).trans hx').trans (.of_no_event rfl rfl)
  · obtain ⟨htrace, hcs⟩ := hc (u.engine.rxHold, rx) (pairDone u)
    exact (xfer_framed hlow hx).trans (.of_no_event htrace hcs)

theorem closeScan_no_event (r : Frame) (s : State) :
    (closeScan r s).trace = s.trace ∧ (closeScan r s).csN = s.csN := by
  unfold closeScan
  split_ifs <;> exact ⟨rfl, rfl⟩

theorem reportCount_no_event (found : Bool) (k e : Nibble) (s : State) :
    (reportCount found k e s).trace = s.trace ∧ (reportCount found k e s).csN = s.csN := by
  unfold reportCount
  split_ifs <;> exact ⟨rfl, rfl⟩

/-- R36, R51: every row of R94 and R114 is framed. -/
theorem engineStep_framed {s t : State} (h : s.Inv) (hm : engineStep s = some t) : FramedTo s t := by
  have hlevel {q : Fsm} (hf : s.engine.fsm = q) : s.csN = q.level := hf ▸ h.cs_level
  rcases engineStep_eq_some hm with ⟨hf, rfl⟩ | ⟨hf, hp⟩ | ⟨-, -, rfl⟩ | ⟨hf, -, hp⟩ | ⟨hf, rfl⟩ | ⟨-, -, rfl⟩ |
    ⟨hf, -, hp⟩ | ⟨hf, rfl⟩ | ⟨hf, rfl⟩ | ⟨hf, hp⟩ | ⟨-, -, rfl⟩ | ⟨hf, -, hp⟩ | ⟨found, hf, rfl⟩
  · exact (csLow_framed (hlevel hf)).trans (.of_no_event rfl rfl)
  · exact pairMove_framed (hlevel hf) hp ⟨rfl, rfl⟩ fun _ _ => ⟨rfl, rfl⟩
  · exact .of_no_event rfl rfl
  · exact pairMove_framed (hlevel hf) hp ⟨rfl, rfl⟩ fun _ _ => ⟨rfl, rfl⟩
  · exact ((csHigh_framed (hlevel hf)).trans (csLow_framed rfl)).trans (.of_no_event rfl rfl)
  · exact .of_no_event rfl rfl
  · exact pairMove_framed (hlevel hf) hp ⟨rfl, rfl⟩ fun _ _ => ⟨rfl, rfl⟩
  · exact (csHigh_framed (hlevel hf)).trans (.of_no_event rfl rfl)
  · exact (csLow_framed (hlevel hf)).trans (.of_no_event rfl rfl)
  · exact pairMove_framed (hlevel hf) hp ⟨rfl, rfl⟩ fun _ _ => ⟨rfl, rfl⟩
  · exact .of_no_event rfl rfl
  · exact pairMove_framed (hlevel hf) hp ⟨rfl, rfl⟩ closeScan_no_event
  · obtain ⟨htrace, hcs⟩ := reportCount_no_event found s.engine.cnt s.engine.totQ (csHigh s)
    exact (csHigh_framed (hlevel hf)).trans (.of_no_event htrace hcs)

theorem advance_framed {s : State} (h : s.Inv) : FramedTo s (advance s) := by
  unfold advance
  cases hm : engineStep s with
  | none => exact .of_no_event rfl rfl
  | some t => exact engineStep_framed h hm

/-! ### Operations in which no reset lands -/

/-- A turn only takes events from the port. -/
theorem turn_port_suffix {s t : State} (h : turn s = some t) : t.port <:+ s.port := by
  obtain ⟨-, ⟨-, hm⟩ | ⟨_, _, _, hp, rfl⟩ | ⟨_, _, _, _, hp, -, rfl⟩ | ⟨_, _, _, hp, rfl⟩ | ⟨rest, hp, rfl⟩ | ⟨_, hp, rfl⟩⟩ :=
    turn_eq_some h
  · exact (engineStep_moveFrame hm).port ▸ List.suffix_rfl
  · exact hp ▸ List.suffix_cons _ _
  · exact hp ▸ List.suffix_cons _ _
  · exact hp ▸ List.suffix_cons _ _
  · rw [hp, (advance_moveFrame { s with port := rest }).port]
    exact List.suffix_cons _ _
  · exact hp ▸ List.suffix_cons _ _

theorem turn_noReset {s t : State} (hn : s.noReset) (h : turn s = some t) : t.noReset :=
  fun hr => hn ((turn_port_suffix h).subset hr)

/-- With no reset pending, a turn of a running operation is framed. -/
theorem turn_framed {s t : State} (h : s.Inv) (hn : s.noReset) (ht : turn s = some t) : FramedTo s t := by
  obtain ⟨-, ⟨-, hm⟩ | ⟨_, _, _, -, rfl⟩ | ⟨_, _, _, _, -, -, rfl⟩ | ⟨_, _, _, -, rfl⟩ | ⟨rest, -, rfl⟩ | ⟨_, hp, -⟩⟩ :=
    turn_eq_some ht
  · exact engineStep_framed h hm
  · exact .of_no_event rfl rfl
  · exact .of_no_event rfl rfl
  · exact .of_no_event rfl rfl
  · exact advance_framed (h.of_forgetHost_eq (t := { s with port := rest }) rfl)
  · exact absurd (hp ▸ List.mem_cons_self) hn

/-- An induction over the turns of an operation in which no reset lands. -/
theorem runOperation_induction_of_noReset {Q : State → Prop} {s : State} (hn : s.noReset) (hs : Q s)
    (hstep : ∀ t u, t.noReset → Q t → turn t = some u → Q u) : Q (runOperation s) :=
  (runTurns_induction (Q := fun t => t.noReset ∧ Q t) (fun t u h ht => ⟨turn_noReset h.1 ht, hstep t u h.1 h.2 ht⟩) _
    ⟨hn, hs⟩).2

theorem runOperation_framed {s : State} (h : s.Inv) (hn : s.noReset) : FramedTo s (runOperation s) :=
  (runOperation_induction_of_noReset (Q := fun t => t.Inv ∧ FramedTo s t) hn ⟨h, .of_no_event rfl rfl⟩
    fun _ _ hn' ⟨hi, hf⟩ ht => ⟨turn_inv hi ht, hf.trans (turn_framed hi hn' ht)⟩).2

theorem transactBody_framed {s : State} (h : s.Inv) (hready : s.ready) (hn : s.noReset) (p n : Nibble) (c d : Byte) :
    FramedTo s (transactBody p n c d (accept s)) := by
  unfold transactBody
  split
  · exact .of_no_event rfl rfl
  · rename_i ha
    have hi := begin_inv h hready (latchTransact p n c d s).engine (.inl rfl) rfl ⟨rfl, by simpa using ha⟩
    exact (FramedTo.of_no_event rfl rfl).trans (runOperation_framed hi hn)

theorem detectBody_framed {s : State} (h : s.Inv) (hready : s.ready) (hn : s.noReset) (e : Nibble) :
    FramedTo s (detectBody e (accept s)) := by
  have hi := begin_inv h hready (latchDetect e s).engine (.inr rfl) rfl rfl
  exact (FramedTo.of_no_event rfl rfl).trans (runOperation_framed hi hn)

theorem writeCommand_framed {w : Word} {s t : State} (h : s.Inv) (hn : s.noReset) (hw : writeCommand exec w s = .next t) :
    FramedTo s t := by
  obtain ⟨hs, ⟨-, rfl⟩ | ⟨hb, rfl | ⟨p, n, c, d, rfl⟩ | ⟨e, rfl⟩⟩⟩ := writeCommand_eq_next hw
  · exact .of_no_event rfl rfl
  · exact .of_no_event rfl rfl
  · exact transactBody_framed h ⟨hs, hb⟩ hn p n c d
  · exact detectBody_framed h ⟨hs, hb⟩ hn e

/-- Settles O46: by the cases of a step; the engine's moves row by row, a whole operation by induction on its turns. -/
theorem exchangesHappenOnlyWhileChipSelectIsLow : Obligations.ExchangesHappenOnlyWhileChipSelectIsLow := by
  intro s t h hreset hcmd hstep
  have hport (rest : List PortEvent) : ({ s with port := rest } : State).Inv := h.of_forgetHost_eq rfl
  change FramedTo s t
  rcases portStep_eq_next hstep with ⟨-, rfl⟩ | ⟨_, _, v, rest, hp, -, ⟨rfl, hc⟩ | ⟨-, rfl⟩⟩ | ⟨_, _, _, -, -, rfl⟩ |
    ⟨_, -, ⟨-, rfl⟩ | ⟨-, rfl⟩⟩ | ⟨rest, -, rfl⟩ | ⟨rest, hp, -⟩ | ⟨_, -, -, -, rfl⟩
  · exact advance_framed h
  · have hn : PortEvent.reset ∉ s.port := hcmd _ v rest hp
    rw [hp] at hn
    exact writeCommand_framed (s := { s with port := rest }) (hport rest) (fun hr => hn (List.mem_cons_of_mem _ hr)) hc
  · exact .of_no_event rfl rfl
  · exact .of_no_event rfl rfl
  · exact advance_framed h
  · exact .of_no_event rfl rfl
  · exact advance_framed (hport rest)
  · exact absurd hp (hreset rest)
  · exact .of_no_event rfl rfl

/-! ### TRANSACT and the calibration -/

/-- What TRANSACT leaves alone: `CAL`, `CAL_OK`, the parameters and the bring-up setup; bus events are only added, and no row
of DETECT is entered. -/
structure CalibrationFrame (s t : State) : Prop where
  cal : t.cal = s.cal
  calOk : t.status.calOk = s.status.calOk
  params : t.params = s.params
  setup : t.shift.setup = s.shift.setup
  trace : s.trace <+: t.trace
  no_detect : s.engine.fsm.op ≠ some .detect → t.engine.fsm.op ≠ some .detect

theorem CalibrationFrame.refl (s : State) : CalibrationFrame s s := ⟨rfl, rfl, rfl, rfl, List.prefix_rfl, id⟩

theorem CalibrationFrame.trans {s t u : State} (h : CalibrationFrame s t) (k : CalibrationFrame t u) : CalibrationFrame s u where
  cal := k.cal.trans h.cal
  calOk := k.calOk.trans h.calOk
  params := k.params.trans h.params
  setup := k.setup.trans h.setup
  trace := h.trace.trans k.trace
  no_detect := k.no_detect ∘ h.no_detect

/-- A move inside `MoveFrame` has only `CAL`, `CAL_OK` and the row it leads to left to show. -/
theorem MoveFrame.calibrationFrame {s t : State} (h : MoveFrame s t) (hcal : t.cal = s.cal)
    (hok : t.status.calOk = s.status.calOk) (hop : s.engine.fsm.op ≠ some .detect → t.engine.fsm.op ≠ some .detect) :
    CalibrationFrame s t :=
  ⟨hcal, hok, h.params, h.setup, h.trace, hop⟩

theorem xfer_calibrationFrame {tx rx : Byte} {s t : State} (h : xfer tx s = some (rx, t)) : CalibrationFrame s t := by
  obtain ⟨-, hst, -, hcal, -⟩ := xfer_frame h
  exact (xfer_moveFrame h).calibrationFrame hcal (by rw [hst]) (by rw [xfer_engine h]; exact id)

theorem pairMove_calibrationFrame {f : Frame} {closing : Frame → State → State} {s t : State}
    (h : pairMove f id closing s = some t) (hc : ∀ r u, CalibrationFrame u (closing r u)) : CalibrationFrame s t := by
  rcases pairMove_eq_some h with ⟨rx, u, -, hx, rfl⟩ | ⟨rx, u, -, hx, rfl⟩
  · exact (xfer_calibrationFrame hx).trans ((holdFirst_moveFrame rx u).calibrationFrame rfl rfl id)
  · exact ((xfer_calibrationFrame hx).trans ((pairDone_moveFrame u).calibrationFrame rfl rfl id)).trans (hc _ _)

/-- R98: no row of R94 writes `CAL` or `CAL_OK`, and none leads to a row of R114. -/
theorem engineStep_calibrationFrame {s t : State} (ho : s.engine.fsm.op ≠ some .detect) (h : engineStep s = some t) :
    CalibrationFrame s t := by
  have hm := engineStep_moveFrame h
  have hdetect {q : Fsm} (hf : s.engine.fsm = q) (hq : q.op = some .detect) : CalibrationFrame s t :=
    absurd (hf ▸ hq) ho
  rcases engineStep_eq_some h with ⟨-, rfl⟩ | ⟨-, hp⟩ | ⟨-, -, rfl⟩ | ⟨-, -, hp⟩ | ⟨-, rfl⟩ | ⟨-, -, rfl⟩ | ⟨-, -, hp⟩ |
    ⟨-, rfl⟩ | ⟨hf, -⟩ | ⟨hf, -⟩ | ⟨hf, -⟩ | ⟨hf, -⟩ | ⟨_, hf, -⟩
  · exact hm.calibrationFrame rfl rfl nofun
  · exact pairMove_calibrationFrame hp fun r u => (closeAddr_moveFrame r u).calibrationFrame rfl rfl nofun
  · exact hm.calibrationFrame rfl rfl nofun
  · exact pairMove_calibrationFrame hp fun r u => (closeLead_moveFrame r u).calibrationFrame rfl rfl id
  · exact hm.calibrationFrame rfl rfl nofun
  · exact hm.calibrationFrame rfl rfl nofun
  · exact pairMove_calibrationFrame hp fun r u => (closeTrail_moveFrame r u).calibrationFrame rfl rfl id
  · exact hm.calibrationFrame rfl rfl nofun
  all_goals exact hdetect hf rfl

theorem advance_calibrationFrame {s : State} (ho : s.engine.fsm.op ≠ some .detect) : CalibrationFrame s (advance s) := by
  unfold advance
  cases h : engineStep s with
  | none => exact .refl s
  | some t => exact engineStep_calibrationFrame ho h

theorem turn_calibrationFrame {s t : State} (hn : s.noReset) (ho : s.engine.fsm.op ≠ some .detect) (h : turn s = some t) :
    CalibrationFrame s t := by
  obtain ⟨-, ⟨-, hm⟩ | ⟨_, _, _, -, rfl⟩ | ⟨_, _, _, _, -, -, rfl⟩ | ⟨_, _, _, -, rfl⟩ | ⟨rest, -, rfl⟩ | ⟨_, hp, -⟩⟩ :=
    turn_eq_some h
  · exact engineStep_calibrationFrame ho hm
  · exact { CalibrationFrame.refl s with }
  · exact { CalibrationFrame.refl s with }
  · exact { CalibrationFrame.refl s with }
  · exact { advance_calibrationFrame (s := { s with port := rest }) ho with }
  · exact absurd (hp ▸ List.mem_cons_self) hn

theorem runOperation_calibrationFrame {s : State} (hn : s.noReset) (ho : s.engine.fsm.op ≠ some .detect) :
    CalibrationFrame s (runOperation s) :=
  runOperation_induction_of_noReset (Q := CalibrationFrame s) hn (.refl s)
    fun _ _ hn' hq ht => hq.trans (turn_calibrationFrame hn' (hq.no_detect ho) ht)

theorem transactBody_calibrationFrame {s : State} (hn : s.noReset) (p n : Nibble) (c d : Byte) :
    CalibrationFrame s (transactBody p n c d s) := by
  unfold transactBody
  split
  · exact { CalibrationFrame.refl s with }
  · have hbegin : CalibrationFrame s (setBusy (latchTransact p n c d s)) := { CalibrationFrame.refl s with no_detect := nofun }
    exact hbegin.trans (runOperation_calibrationFrame hn nofun)

/-- Settles O27: by induction on the turns of the operation, which stays in the rows of R94. -/
theorem transactLeavesCalibrationAlone : Obligations.TransactLeavesCalibrationAlone := by
  intro s t p n c d hn h
  obtain ⟨-, ⟨-, rfl⟩ | ⟨-, rfl⟩⟩ := submit_eq_next h
  · exact ⟨rfl, rfl, rfl, rfl, List.prefix_rfl⟩
  · obtain ⟨hcal, hok, hparams, hsetup, htrace, -⟩ := transactBody_calibrationFrame (s := accept s) hn p n c d
    exact ⟨hcal, hok, hparams, hsetup, htrace⟩

/-! ### The live registers of the engine

A register is live if a row still reads it before it writes it. Whatever the machine does depends on the live registers only: each
operation below takes states with the same live registers to states with the same live registers. -/

/-- The engine steps from which the counter is read before it is written again (R94, R114). -/
def Fsm.readsCnt : Fsm → Bool
  | .tLead | .tTrail | .dSent | .dScan | .dEnd _ => true
  | .idle | .tStart | .tAddr | .tToggle | .tEnd | .dStart => false

/-- The internal registers that the rows of R94 and R114 still read before they write them, every other one at its reset
value. No row reads `op_q`: the engine step says which operation runs. -/
def Engine.live (e : Engine) : Engine where
  fsm := e.fsm
  half := e.half
  opQ := Engine.reset.opQ
  posQ := if e.fsm.op = some .transact then e.posQ else Engine.reset.posQ
  totQ := if e.fsm.op = none then Engine.reset.totQ else e.totQ
  cmdQ := if e.fsm.op = some .transact then e.cmdQ else Engine.reset.cmdQ
  datQ := if e.fsm.op = some .transact then e.datQ else Engine.reset.datQ
  cnt := if e.fsm.readsCnt then e.cnt else Engine.reset.cnt
  rxHold := if e.half = .data then e.rxHold else Engine.reset.rxHold

/-- The state with only the live registers of its engine. -/
def State.live (s : State) : State := { s with engine := s.engine.live }

@[simp] theorem State.live_fsm (s : State) : s.live.engine.fsm = s.engine.fsm := rfl
@[simp] theorem State.live_params (s : State) : s.live.params = s.params := rfl
@[simp] theorem State.live_status (s : State) : s.live.status = s.status := rfl
@[simp] theorem State.live_shift (s : State) : s.live.shift = s.shift := rfl
@[simp] theorem State.live_port (s : State) : s.live.port = s.port := rfl
@[simp] theorem State.live_half (s : State) : s.live.engine.half = s.engine.half := rfl

theorem State.live_posQ {s : State} (h : s.engine.fsm.op = some .transact) : s.live.engine.posQ = s.engine.posQ := if_pos h
theorem State.live_cmdQ {s : State} (h : s.engine.fsm.op = some .transact) : s.live.engine.cmdQ = s.engine.cmdQ := if_pos h
theorem State.live_datQ {s : State} (h : s.engine.fsm.op = some .transact) : s.live.engine.datQ = s.engine.datQ := if_pos h
theorem State.live_totQ {s : State} (h : s.engine.fsm.op ≠ none) : s.live.engine.totQ = s.engine.totQ := if_neg h
theorem State.live_cnt {s : State} (h : s.engine.fsm.readsCnt = true) : s.live.engine.cnt = s.engine.cnt := if_pos h
theorem State.live_rxHold {s : State} (h : s.engine.half = .data) : s.live.engine.rxHold = s.engine.rxHold := if_pos h

theorem State.live_live (s : State) : s.live.live = s.live := by
  grind [State.live, Engine.live]

/-! Each write of an engine register, seen through the live registers, depends on the live registers only. -/

/-- A row is left with its operands as live as they were, or for `IDLE`, and with the counter live only if it was. -/
theorem goto_live {q : Fsm} {s : State} (hop : q.op = none ∨ q.op = s.engine.fsm.op)
    (hcnt : q.readsCnt = true → s.engine.fsm.readsCnt = true) : (goto q s.live).live = (goto q s).live := by
  grind [goto, State.live, Engine.live]

theorem setCnt_live (k : Nibble) (s : State) : (setCnt k s.live).live = (setCnt k s).live := by
  grind [setCnt, State.live, Engine.live]

/-- A row that writes the counter may be left for one that reads it. -/
theorem goto_setCnt_live {q : Fsm} (k : Nibble) {s : State} (hop : q.op = s.engine.fsm.op) :
    (goto q (setCnt k s.live)).live = (goto q (setCnt k s)).live := by
  grind [goto, setCnt, State.live, Engine.live]

theorem holdFirst_live (rx : Byte) (s : State) : (holdFirst rx s.live).live = (holdFirst rx s).live := by
  grind [holdFirst, State.live, Engine.live]

theorem pairDone_live (s : State) : (pairDone s.live).live = (pairDone s).live := by
  grind [pairDone, State.live, Engine.live]

/-- A byte exchange neither reads nor writes the engine. -/
theorem xfer_live (tx : Byte) (s : State) : xfer tx s.live = (xfer tx s).map fun p => (p.1, p.2.live) := by
  simp only [xfer, apply_ite (Option.map _), Option.map_none, Option.map_some]
  rfl

/-! ### The rows read live registers only -/

theorem closeAddr_live (r : Frame) {s : State} (hf : s.engine.fsm = .tAddr) :
    (closeAddr r s.live).live = (closeAddr r s).live := by
  have hop : s.engine.fsm.op = some .transact := by rw [hf]; rfl
  rw [closeAddr, State.live_posQ hop]
  exact goto_setCnt_live (s := capture r s) _ hop.symm

theorem closeLead_live (r : Frame) {s : State} (hf : s.engine.fsm = .tLead) :
    (closeLead r s.live).live = (closeLead r s).live := by
  rw [closeLead, State.live_cnt (by rw [hf]; rfl)]
  exact setCnt_live _ s

theorem toggle_live {s : State} (hf : s.engine.fsm = .tToggle) : (toggle s.live).live = (toggle s).live := by
  have hop : s.engine.fsm.op = some .transact := by rw [hf]; rfl
  rw [toggle, State.live_posQ hop, State.live_totQ (by simp [hop])]
  exact goto_setCnt_live (s := csLow (csHigh s)) _ hop.symm

theorem closeTrail_live (r : Frame) {s : State} (hf : s.engine.fsm = .tTrail) :
    (closeTrail r s.live).live = (closeTrail r s).live := by
  rw [closeTrail, State.live_cnt (by rw [hf]; rfl)]
  exact setCnt_live _ (capture r s)

theorem endTransact_live {s : State} (hf : s.engine.fsm = .tEnd) : (endTransact s.live).live = (endTransact s).live := by
  have hop : s.engine.fsm.op = some .transact := by rw [hf]; rfl
  rw [endTransact, State.live_cmdQ hop, State.live_datQ hop]
  exact goto_live (s := verifyEcho (s.engine.cmdQ, s.engine.datQ) (csHigh s)) (.inl rfl) nofun

theorem closeSentinel_live (r : Frame) {s : State} (hf : s.engine.fsm = .dSent) :
    (closeSentinel r s.live).live = (closeSentinel r s).live :=
  goto_live (.inr (by rw [hf]; rfl)) (fun _ => by rw [hf]; rfl)

theorem openScan_live {s : State} (hf : s.engine.fsm = .dScan) : openScan s.live = (openScan s).live := by
  rw [openScan, State.live_cnt (by rw [hf]; rfl)]
  simp [openScan, setCnt, State.live, Engine.live, hf, Fsm.readsCnt]

theorem closeScan_live (r : Frame) {s : State} (hf : s.engine.fsm = .dScan) :
    (closeScan r s.live).live = (closeScan r s).live := by
  rw [closeScan, closeScan, State.live_params]
  split
  · exact goto_live (s := capture r s) (.inr (by rw [capture_engine, hf]; rfl)) (fun _ => by rw [capture_engine, hf]; rfl)
  · exact (capture r s).live_live

theorem reportCount_live (found : Bool) (k e : Nibble) (s : State) :
    reportCount found k e s.live = (reportCount found k e s).live := by
  unfold reportCount
  split_ifs <;> rfl

theorem endDetect_live {found : Bool} {s : State} (hf : s.engine.fsm = .dEnd found) :
    (endDetect found s.live).live = (endDetect found s).live := by
  rw [endDetect, State.live_cnt (by rw [hf]; rfl), State.live_totQ (by simp [hf, Fsm.op])]
  have hr := reportCount_live found s.engine.cnt s.engine.totQ (csHigh s)
  exact (congrArg (fun u => (goto .idle u).live) hr).trans (goto_live (.inl rfl) nofun)

theorem scanExhausted_live {s : State} (hf : s.engine.fsm = .dScan) : scanExhausted s.live = scanExhausted s := by
  rw [scanExhausted, State.live_cnt (by rw [hf]; rfl)]
  rfl

theorem pairMove_live {opening : State → State} {closing : Frame → State → State} (f : Frame) (s : State)
    (hopen : opening s.live = (opening s).live)
    (hclose : ∀ r u, u.engine.fsm = s.engine.fsm → (closing r u.live).live = (closing r u).live) :
    (pairMove f opening closing s.live).map State.live = (pairMove f opening closing s).map State.live := by
  unfold pairMove
  cases hh : s.engine.half with
  | cmd =>
    simp only [State.live_half, hh, hopen, xfer_live]
    cases xfer f.1 (opening s) with
    | none => rfl
    | some p => exact congrArg some (holdFirst_live p.1 p.2)
  | data =>
    simp only [State.live_half, hh, xfer_live]
    cases hx : xfer f.2 s with
    | none => rfl
    | some p =>
      obtain ⟨rx, u⟩ := p
      have he := xfer_engine hx
      have hq : u.engine.fsm = s.engine.fsm := by rw [he]
      simp only [Option.map_some, State.live_rxHold (s := u) (by rw [he, hh])]
      rw [← hclose _ (pairDone u) hq, ← hclose _ (pairDone u.live) hq, pairDone_live]

/-- A move of the engine depends on the live registers only, and what it leaves live too. -/
theorem engineStep_live (s : State) : (engineStep s.live).map State.live = (engineStep s).map State.live := by
  cases hf : s.engine.fsm <;> simp only [engineStep, State.live_fsm, State.live_params, hf]
  case tStart => exact congrArg some (goto_live (s := csLow s) (.inr (by rw [csLow_engine, hf]; rfl)) nofun)
  case tAddr =>
    have hop : s.engine.fsm.op = some .transact := by rw [hf]; rfl
    rw [State.live_cmdQ hop, State.live_datQ hop]
    exact pairMove_live _ s rfl fun r u hu => closeAddr_live r (hu.trans hf)
  case tLead =>
    rw [State.live_cnt (by rw [hf]; rfl)]
    by_cases hc : s.engine.cnt = 0#4
    · rw [if_pos hc, if_pos hc]
      exact congrArg some (goto_live (.inr (by rw [hf]; rfl)) nofun)
    · rw [if_neg hc, if_neg hc]
      exact pairMove_live _ s rfl fun r u hu => closeLead_live r (hu.trans hf)
  case tToggle => exact congrArg some (toggle_live hf)
  case tTrail =>
    rw [State.live_cnt (by rw [hf]; rfl)]
    by_cases hc : s.engine.cnt = 0#4
    · rw [if_pos hc, if_pos hc]
      exact congrArg some (goto_live (.inr (by rw [hf]; rfl)) nofun)
    · rw [if_neg hc, if_neg hc]
      exact pairMove_live _ s rfl fun r u hu => closeTrail_live r (hu.trans hf)
  case tEnd => exact congrArg some (endTransact_live hf)
  case dStart => exact congrArg some (goto_setCnt_live 0#4 (s := csLow s) (by rw [csLow_engine, hf]; rfl))
  case dSent => exact pairMove_live _ s rfl fun r u hu => closeSentinel_live r (hu.trans hf)
  case dScan =>
    rw [scanExhausted_live hf]
    by_cases hx : scanExhausted s = true
    · rw [if_pos hx, if_pos hx]
      exact congrArg some (goto_live (.inr (by rw [hf]; rfl)) (fun _ => by rw [hf]; rfl))
    · rw [if_neg hx, if_neg hx]
      exact pairMove_live _ s (openScan_live hf) fun r u hu => closeScan_live r (hu.trans hf)
  case dEnd found => exact congrArg some (endDetect_live hf)

/-! ### Turns, operations and steps depend on the live registers only -/

/-- A move is made from the live registers exactly when it is made from all, and leaves the same registers live. -/
theorem engineStep_live_eq_some {s t : State} (h : engineStep s = some t) :
    ∃ u, engineStep s.live = some u ∧ u.live = t.live := by
  simpa [h] using engineStep_live s

theorem engineStep_live_eq_none {s : State} (h : engineStep s = none) : engineStep s.live = none := by
  simpa [h] using engineStep_live s

theorem advance_live (s : State) : (advance s.live).live = (advance s).live := by
  unfold advance
  cases hs : engineStep s with
  | none => rw [engineStep_live_eq_none hs]; exact s.live_live
  | some t =>
    obtain ⟨u, hu, hl⟩ := engineStep_live_eq_some hs
    rw [hu]
    exact hl

theorem viewOutcome_live_next (s : State) :
    viewOutcome State.live (.next s.live) = viewOutcome State.live (.next s) := congrArg Host.Outcome.next s.live_live

/-- What a port event does depends on the live registers only, if what a command word does so does. -/
theorem portStep_live {command : Word → State → Outcome}
    (hc : ∀ v s, viewOutcome State.live (command v s.live) = viewOutcome State.live (command v s)) (s : State) :
    viewOutcome State.live (portStep command s.live) = viewOutcome State.live (portStep command s) := by
  have hadv (u : State) : viewOutcome State.live (.next (advance u.live)) = viewOutcome State.live (.next (advance u)) :=
    congrArg Host.Outcome.next (advance_live u)
  unfold portStep
  rw [State.live_port]
  split
  case h_1 => exact hadv s
  case h_2 off width v rest _ =>
    split_ifs
    · exact hc v { s with port := rest }
    · exact viewOutcome_live_next { s with port := rest }
    · rfl
  case h_3 off width rest _ =>
    split_ifs
    · exact viewOutcome_live_next (hostRead off { s with port := rest })
    · rfl
  case h_4 rest _ =>
    rw [State.live_status]
    split_ifs
    · exact hadv s
    · exact viewOutcome_live_next (hostRead 4 { s with port := rest })
  case h_5 rest _ => exact hadv { s with port := rest }
  case h_6 rest _ => rfl
  case h_7 rest _ =>
    rw [State.live_status, State.live_params]
    split_ifs
    · rfl
    · exact viewOutcome_live_next (configureBus { s with port := rest })
    · rfl

theorem turnLeft_live (s : State) : turnLeft s.live = turnLeft s := by
  have h : (engineStep s.live).isSome = (engineStep s).isSome := by
    simpa using congrArg Option.isSome (engineStep_live s)
  unfold turnLeft
  rw [State.live_port, h]

theorem turn_live (s : State) : (turn s.live).map State.live = (turn s).map State.live := by
  have h := portStep_live (command := fun _ t => .next (dropCommand t)) (fun _ u => viewOutcome_live_next (dropCommand u)) s
  unfold turn
  rw [turnLeft_live, State.live_status]
  split
  · -- the two port steps answer outcomes of the same kind
    generalize portStep _ s.live = o, portStep _ s = o' at h ⊢
    cases o <;> cases o' <;> simp_all [viewOutcome]
  · rfl

theorem runTurns_live (k : Nat) (s : State) : (runTurns k s.live).live = (runTurns k s).live := by
  induction k generalizing s with
  | zero => exact s.live_live
  | succ k ih =>
    cases hs : turn s with
    | none =>
      have hl : turn s.live = none := by simpa [hs] using turn_live s
      rw [runTurns_of_turn_none hs, runTurns_of_turn_none hl, s.live_live]
    | some t =>
      obtain ⟨u, hl, hu⟩ : ∃ u, turn s.live = some u ∧ u.live = t.live := by simpa [hs] using turn_live s
      rw [runTurns_succ hs, runTurns_succ hl, ← ih u, hu, ih t]

/-- An operation run from states with the same live registers ends in such states. -/
theorem runOperation_live_congr {s t : State} (h : s.live = t.live) : (runOperation s).live = (runOperation t).live := by
  have hrun (u : State) : (runOperation u.live).live = (runOperation u).live := runTurns_live _ u
  rw [← hrun s, h, hrun t]

/-! Latching the operands of a command writes every register that is live in the first row of its operation. -/

theorem transactBody_live (p n : Nibble) (c d : Byte) (s : State) :
    (transactBody p n c d s.live).live = (transactBody p n c d s).live := by
  unfold transactBody
  split
  · exact (finish .badArgs s).live_live
  · exact runOperation_live_congr rfl

theorem detectBody_live (e : Nibble) (s : State) : (detectBody e s.live).live = (detectBody e s).live :=
  runOperation_live_congr rfl

theorem submit_live {body : State → State} (hb : ∀ s : State, (body s.live).live = (body s).live) (s : State) :
    viewOutcome State.live (submit body s.live) = viewOutcome State.live (submit body s) := by
  unfold submit
  rw [State.live_shift, State.live_status]
  split_ifs
  · exact viewOutcome_live_next (dropCommand s)
  · exact congrArg Host.Outcome.next (hb (accept s))
  · rfl

theorem writeCommand_live (w : Word) (s : State) :
    viewOutcome State.live (writeCommand exec w s.live) = viewOutcome State.live (writeCommand exec w s) := by
  unfold writeCommand
  cases decode w with
  | ok i =>
    cases i with
    | transact p n c d => exact submit_live (transactBody_live p n c d) s
    | detect e => exact submit_live (detectBody_live e) s
  | error _ => exact submit_live (fun u => (rejectIllegal u).live_live) s

/-- What a step does depends on the live registers only, and so does what it leaves live. -/
theorem step_live (s : State) : viewOutcome State.live (step s.live) = viewOutcome State.live (step s) :=
  portStep_live writeCommand_live s

/-- While the engine is `IDLE` with the first byte of a pair due, no register is live. -/
theorem Engine.live_of_idle {e : Engine} (hf : e.fsm = .idle) (hh : e.half = .cmd) : e.live = Engine.reset := by
  simp [Engine.live, hf, hh, Fsm.op, Fsm.readsCnt, Engine.reset]

/-- Without the registers that reset leaves unspecified, a state shows nothing that its live registers do not. -/
theorem viewOutcome_forgetRegisters_live (o : Outcome) :
    viewOutcome State.forgetRegisters (viewOutcome State.live o) = viewOutcome State.forgetRegisters o := by
  cases o <;> rfl

/-- Settles O42: a step depends on the live registers only, and an idle engine has none. -/
theorem unspecifiedRegistersAreNotRead : Obligations.UnspecifiedRegistersAreNotRead := by
  intro s e _ hf hh hf' hh'
  have hlive : s.live = State.live { s with engine := e } := by
    simp only [State.live, Engine.live_of_idle hf hh, Engine.live_of_idle hf' hh']
  rw [← viewOutcome_forgetRegisters_live, ← step_live s, hlive, step_live, viewOutcome_forgetRegisters_live]

end Sys2Proof.Machine

/-! Proofs of O14, O36, O41, O50 and O51 (family `20_memory`): the output registers, accesses at the host
port, the order of the bits, an operation with host accesses landing in it, and DETECT on a reference chain. -/

namespace Sys2Proof.Machine

/-! ### The boards' output registers -/

/-- Settles O51: the addresses of the output registers are those of the boards `1..M`. -/
theorem everyOutputRegisterHoldsAByte : Obligations.EveryOutputRegisterHoldsAByte := by
  intro ch hwf b r
  obtain ⟨-, -, haddrs⟩ := hwf
  have hread : (ch.out.read (outAddr b r)).isSome = true ↔ 1 ≤ b ∧ b ≤ ch.depth := by
    rw [Memory.read_isSome, haddrs, outAddr_mem_registerAddrs]
  refine ⟨fun h1 hd => Option.isSome_iff_exists.1 (hread.2 ⟨h1, hd⟩), fun hb => ?_⟩
  rw [← Option.not_isSome_iff_eq_none, hread]
  omega

/-! ### Accesses outside the interface -/

/-- R44: the accesses of the interface are those of 4 bytes to one of the four registers. -/
theorem accessAllowed_eq_true {off width : Nat} :
    accessAllowed off width = true ↔ width = 4 ∧ (off = 0 ∨ off = 4 ∨ off = 8 ∨ off = 12) := by
  simp only [accessAllowed, Bool.and_eq_true, decide_eq_true_eq]
  omega

theorem submit_ne_accessOutsideInterface (body : State → State) (s : State) :
    submit body s ≠ .refused .accessOutsideInterface := by
  unfold submit
  split_ifs <;> nofun

/-- A command word is never refused for the place it is written to. -/
theorem writeCommand_ne_accessOutsideInterface (w : Word) (s : State) :
    writeCommand exec w s ≠ .refused .accessOutsideInterface := by
  unfold writeCommand
  split
  case h_1 i _ => cases i <;> exact submit_ne_accessOutsideInterface _ s
  case h_2 => exact submit_ne_accessOutsideInterface _ s

/-- Settles O14: an access is refused as outside the interface exactly where `accessAllowed` says so. -/
theorem accessesOutsideTheInterfaceAreRefused : Obligations.AccessesOutsideTheInterfaceAreRefused := by
  intro s rest off width v
  refine ⟨fun hout => ?_, fun hin => ?_⟩
  · have ha : ¬accessAllowed off width = true := by rw [accessAllowed_eq_true]; omega
    exact ⟨fun hp => by simp only [step, portStep, hp, if_neg ha], fun hp => by simp only [step, portStep, hp, if_neg ha]⟩
  · have ha : accessAllowed off width = true := accessAllowed_eq_true.2 hin
    obtain ⟨rfl, -⟩ := hin
    refine ⟨fun hp => ?_, fun hp => ⟨_, step_of_read hp ha⟩⟩
    by_cases ho : off = 0
    · simp only [step, portStep, hp, if_pos ha, if_pos ho]
      exact writeCommand_ne_accessOutsideInterface v _
    · rw [step_of_write hp ha ho]
      nofun

/-! ### The order of the bits -/

/-- R48: bit 7 goes out first. -/
theorem msbFirst_eq (b : Byte) :
    msbFirst b = [b.getLsbD 7, b.getLsbD 6, b.getLsbD 5, b.getLsbD 4, b.getLsbD 3, b.getLsbD 2, b.getLsbD 1, b.getLsbD 0] := rfl

theorem msbFirst_length (b : Byte) : (msbFirst b).length = 8 := rfl

/-- R12: the two data lines carry the byte sent and the byte received of each exchange, in the order of the exchanges. -/
theorem pairEvents_wireBits (f r : Frame) :
    (pairEvents f r).flatMap BusEvent.wireBits = (msbFirst f.1 ++ msbFirst f.2).zip (msbFirst r.1 ++ msbFirst r.2) := by
  rw [List.zip_append (by simp only [msbFirst_length])]
  simp [pairEvents, BusEvent.wireBits]

/-- Settles O50: each line carries the command byte and then the data byte, each with bit 7 first. -/
theorem frameBitsGoOutMsbFirst : Obligations.FrameBitsGoOutMsbFirst := by
  intro f r
  rw [pairEvents_wireBits, List.map_fst_zip (by simp [msbFirst_length]), List.map_snd_zip (by simp [msbFirst_length])]
  simp only [msbFirst_eq]
  exact ⟨rfl, rfl⟩

/-! ### How many moves an operation still takes -/

/-- The moves a row of pair exchanges takes for `k` more pairs and to leave the row; one less inside a pair. -/
def pairMoves (k : Nat) : Half → Nat
  | .cmd => 2 * k + 3
  | .data => 2 * k + 2

theorem pairMoves_bounds (k : Nat) (h : Half) : 2 * k + 2 ≤ pairMoves k h ∧ pairMoves k h ≤ 2 * k + 3 := by
  cases h <;> simp [pairMoves]

theorem pairMoves_data_lt (k : Nat) : pairMoves k .data < pairMoves k .cmd := Nat.lt_succ_self _

/-- R94: between two pairs fewer moves are left than inside the first of them. -/
theorem pairMoves_pred_lt {k : Nibble} (hk : k ≠ 0#4) : pairMoves (k - 1#4).toNat .cmd < pairMoves k.toNat .data := by
  have := nibble_pred_lt hk
  simp only [pairMoves]
  omega

/-- A bound on the moves the engine still makes from a state (R94, R114): every move lowers it. -/
def movesLeft (s : State) : Nat :=
  let trail := 2 * (trailingCycles s.engine.posQ s.engine.totQ).toNat + 4
  let lead := 2 * (leadingPads s.engine.posQ).toNat + 3 + trail
  match s.engine.fsm with
  | .idle => 0
  | .tStart => lead + 4
  | .tAddr => pairMoves 0 s.engine.half + lead
  | .tLead => pairMoves s.engine.cnt.toNat s.engine.half + trail
  | .tToggle => trail
  | .tTrail => pairMoves s.engine.cnt.toNat s.engine.half
  | .tEnd => 1
  | .dStart => 2 * s.params.calMax + 7
  | .dSent => pairMoves 0 s.engine.half + 2 * s.params.calMax + 3
  | .dScan =>
    match s.engine.half with
    | .cmd => 2 * (s.params.calMax - s.engine.cnt.toNat) + 2
    | .data => 2 * (s.params.calMax - s.engine.cnt.toNat) + 3
  | .dEnd _ => 1

/-- Each byte of a pair exchange lowers the bound, if the byte held and the pair received each do so. -/
theorem pairMove_movesLeft {f : Frame} {opening : State → State} {closing : Frame → State → State} {s t : State}
    (hfirst : s.engine.half = .cmd → ∀ rx u, u.engine = (opening s).engine → u.params = (opening s).params →
      movesLeft (holdFirst rx u) < movesLeft s)
    (hclose : s.engine.half = .data → ∀ r u, u.engine = s.engine → u.params = s.params →
      movesLeft (closing r (pairDone u)) < movesLeft s)
    (h : pairMove f opening closing s = some t) : movesLeft t < movesLeft s := by
  rcases pairMove_eq_some h with ⟨rx, u, hh, hx, rfl⟩ | ⟨rx, u, hh, hx, rfl⟩
  · exact hfirst hh rx u (xfer_engine hx) (xfer_moveFrame hx).params
  · exact hclose hh _ u (xfer_engine hx) (xfer_moveFrame hx).params

/-- A pair of the scan lowers the bound: counting it does not wrap the counter (R9, R115). -/
theorem scanPair_movesLeft {s t : State} (hmax : s.params.calMax ≤ 15) (hf : s.engine.fsm = .dScan)
    (hx : scanExhausted s = false) (h : pairMove (nopFrame s.params) openScan closeScan s = some t) :
    movesLeft t < movesLeft s := by
  refine pairMove_movesLeft (fun hh rx u he hu => ?_) (fun hh r u he hu => ?_) h
  · have hlt : s.engine.cnt.toNat < s.params.calMax := by simpa [scanExhausted, hh] using hx
    have hcnt := nibble_succ_toNat (k := s.engine.cnt) (by omega)
    simp only [movesLeft, openScan, holdFirst_engine, holdFirst_params, setCnt_engine, setCnt_params, he, hu, hf, hh, hcnt]
    omega
  · unfold closeScan
    split <;> simp [movesLeft, he, hu, hf, hh]

/-- Every move of the engine lowers the bound, if the scan's bound fits its counter (R9). -/
theorem engineStep_movesLeft {s t : State} (hmax : s.params.calMax ≤ 15) (h : engineStep s = some t) :
    movesLeft t < movesLeft s := by
  have hbounds (k : Nat) := pairMoves_bounds k s.engine.half
  rcases engineStep_eq_some h with ⟨hf, rfl⟩ | ⟨hf, hp⟩ | ⟨hf, hc, rfl⟩ | ⟨hf, hc, hp⟩ | ⟨hf, rfl⟩ | ⟨hf, hc, rfl⟩ |
    ⟨hf, hc, hp⟩ | ⟨hf, rfl⟩ | ⟨hf, rfl⟩ | ⟨hf, hp⟩ | ⟨hf, hx, rfl⟩ | ⟨hf, hx, hp⟩ | ⟨found, hf, rfl⟩
  · have := hbounds 0
    simp only [movesLeft, hf, goto_engine, csLow_engine]
    omega
  · exact pairMove_movesLeft (fun hh rx u he _ => by simp [movesLeft, pairMoves_data_lt, he, hf, hh])
      (fun hh r u he _ => by simp [movesLeft, closeAddr, pairMoves, he, hf, hh]) hp
  · have := hbounds s.engine.cnt.toNat
    simp only [movesLeft, hf, goto_engine]
    omega
  · exact pairMove_movesLeft (fun hh rx u he _ => by simp [movesLeft, pairMoves_data_lt, he, hf, hh])
      (fun hh r u he _ => by simpa [movesLeft, closeLead, he, hf, hh] using pairMoves_pred_lt hc) hp
  · have := hbounds (trailingCycles s.engine.posQ s.engine.totQ).toNat
    simp only [movesLeft, hf, toggle, goto_engine, setCnt_engine, csLow_engine, csHigh_engine]
    omega
  · have := hbounds s.engine.cnt.toNat
    simp only [movesLeft, hf, goto_engine]
    omega
  · exact pairMove_movesLeft (fun hh rx u he _ => by simp [movesLeft, pairMoves_data_lt, he, hf, hh])
      (fun hh r u he _ => by simpa [movesLeft, closeTrail, he, hf, hh] using pairMoves_pred_lt hc) hp
  · simp [movesLeft, hf, endTransact]
  · have := hbounds 0
    simp only [movesLeft, hf, goto_engine, setCnt_engine, csLow_engine, goto_params, setCnt_params, csLow_params]
    omega
  · refine pairMove_movesLeft (fun hh rx u he hu => by simp [movesLeft, pairMoves_data_lt, he, hu, hf, hh])
      (fun hh r u he hu => ?_) hp
    simp only [movesLeft, closeSentinel, pairMoves, goto_engine, goto_params, pairDone_engine, pairDone_params, he, hu, hf, hh]
    omega
  · have hh : s.engine.half = .cmd := by simp_all [scanExhausted]
    simp [movesLeft, hf, hh]
  · exact scanPair_movesLeft hmax hf hx hp
  · simp [movesLeft, hf, endDetect]

/-! ### The engine does not see what host accesses may change -/

theorem xfer_forgetHost (tx : Byte) (s : State) : xfer tx s.forgetHost = (xfer tx s).map fun p => (p.1, p.2.forgetHost) := by
  simp only [xfer, apply_ite (Option.map _), Option.map_none, Option.map_some]
  rfl

theorem pairMove_forgetHost {opening : State → State} {closing : Frame → State → State} (f : Frame) (s : State)
    (hopen : opening s.forgetHost = (opening s).forgetHost)
    (hclose : ∀ r u, closing r (State.forgetHost u) = (closing r u).forgetHost) :
    pairMove f opening closing s.forgetHost = (pairMove f opening closing s).map State.forgetHost := by
  have hhalf : s.forgetHost.engine.half = s.engine.half := rfl
  unfold pairMove
  rw [hhalf]
  cases s.engine.half with
  | cmd =>
    simp only [hopen, xfer_forgetHost]
    cases xfer f.1 (opening s) <;> rfl
  | data =>
    simp only [xfer_forgetHost]
    cases xfer f.2 s with
    | none => rfl
    | some p => exact congrArg some (hclose _ (pairDone p.2))

theorem closeScan_forgetHost (r : Frame) (s : State) : closeScan r s.forgetHost = (closeScan r s).forgetHost := by
  simp only [closeScan, apply_ite State.forgetHost]
  rfl

theorem reportCount_forgetHost (found : Bool) (k e : Nibble) (s : State) :
    reportCount found k e s.forgetHost = (reportCount found k e s).forgetHost := by
  simp only [reportCount, apply_ite State.forgetHost]
  rfl

theorem endDetect_forgetHost (found : Bool) (s : State) : endDetect found s.forgetHost = (endDetect found s).forgetHost :=
  congrArg (goto .idle) (reportCount_forgetHost found s.engine.cnt s.engine.totQ (csHigh s))

/-- R61: what the engine's move does to all that host accesses do not touch, it does whatever they did. -/
theorem engineStep_forgetHost (s : State) : engineStep s.forgetHost = (engineStep s).map State.forgetHost := by
  have hengine : s.forgetHost.engine = s.engine := rfl
  have hparams : s.forgetHost.params = s.params := rfl
  have hscan : scanExhausted s.forgetHost = scanExhausted s := rfl
  cases hf : s.engine.fsm <;> simp only [engineStep, hengine, hparams, hscan, hf, apply_ite (Option.map _)]
  case tAddr => exact pairMove_forgetHost _ s rfl fun _ _ => rfl
  case tLead => rw [pairMove_forgetHost (opening := id) (closing := closeLead) _ s rfl fun _ _ => rfl]; rfl
  case tTrail => rw [pairMove_forgetHost (opening := id) (closing := closeTrail) _ s rfl fun _ _ => rfl]; rfl
  case dSent => exact pairMove_forgetHost _ s rfl fun _ _ => rfl
  case dScan => rw [pairMove_forgetHost (opening := openScan) _ s rfl closeScan_forgetHost]; rfl
  case dEnd found => exact congrArg some (endDetect_forgetHost found s)
  all_goals rfl

/-! ### An operation with host accesses landing in it -/

/-- Every event pending at the port is a host access of the interface, a `WAIT` or an engine move. -/
def State.harmlessPort (s : State) : Prop := ∀ e ∈ s.port, PortEvent.harmless e = true

theorem turn_harmlessPort {s t : State} (hs : s.harmlessPort) (h : turn s = some t) : t.harmlessPort :=
  fun e he => hs e ((turn_port_suffix h).subset he)

/-- With nothing landing in it, the operation moves as the engine does, whatever the host did before. -/
theorem turn_forgetHost {s : State} (hb : s.status.busy = true) :
    turn s.forgetHost = (engineStep s).map State.forgetHost := by
  rw [turn_of_undisturbed (s := s.forgetHost) hb (.inl rfl), engineStep_forgetHost]

/-- A harmless turn is a move of the engine that may take an event with it, or takes an event and moves nothing. -/
theorem turn_harmless {s t : State} (hs : s.harmlessPort) (h : turn s = some t) :
    (t.port.length ≤ s.port.length ∧ ∃ u, engineStep s = some u ∧ t.forgetHost = u.forgetHost) ∨
      (t.port.length < s.port.length ∧ t.forgetHost = s.forgetHost) := by
  obtain ⟨-, ⟨-, hm⟩ | ⟨_, _, _, hp, rfl⟩ | ⟨_, _, _, _, hp, -, rfl⟩ | ⟨_, _, _, hp, rfl⟩ | ⟨rest, hp, rfl⟩ | ⟨_, hp, -⟩⟩ :=
    turn_eq_some h
  · exact .inl ⟨(engineStep_moveFrame hm).port ▸ le_rfl, t, hm, rfl⟩
  · exact .inr ⟨by simp [hp], rfl⟩
  · exact .inr ⟨by simp [hp], rfl⟩
  · exact .inr ⟨by simp [hp], rfl⟩
  · have hport : (advance { s with port := rest }).port.length < s.port.length := by
      rw [(advance_moveFrame { s with port := rest }).port, hp]
      exact Nat.lt_succ_self _
    have hsame : (engineStep { s with port := rest }).map State.forgetHost = (engineStep s).map State.forgetHost := by
      rw [← engineStep_forgetHost, ← engineStep_forgetHost]
      rfl
    cases hm : engineStep { s with port := rest } with
    | none => exact .inr ⟨hport, by simp only [advance, hm]; rfl⟩
    | some v =>
      obtain ⟨u, hu, hv⟩ : ∃ u, engineStep s = some u ∧ u.forgetHost = v.forgetHost := by simpa [hm, eq_comm] using hsame
      exact .inl ⟨hport.le, u, hu, by simp [advance, hm, hv]⟩
  · simpa [PortEvent.harmless] using hs .reset (by simp [hp])

/-- An operation into which only harmless events land stops only where the engine can move no more. -/
theorem engineStep_eq_none_of_turn {s : State} (hs : s.harmlessPort) (hb : s.status.busy = true) (h : turn s = none) :
    engineStep s = none := by
  cases hp : s.port with
  | nil => rwa [turn_of_undisturbed hb (.inl hp)] at h
  | cons e rest =>
    have he : PortEvent.harmless e = true := hs e (by simp [hp])
    cases e with
    | write off width v =>
      have ha : accessAllowed off width = true := he
      rcases eq_or_ne off 0 with rfl | ho
      · simp [turn, hb, turnLeft, portStep, hp, ha] at h
      · simp [turn, hb, turnLeft, portStep, hp, ha, ho] at h
    | read off width =>
      have ha : accessAllowed off width = true := he
      simp [turn, hb, turnLeft, portStep, hp, ha] at h
    | wait => rwa [turn_of_undisturbed hb (.inr (by simp [hp]))] at h
    | engine => simp [turn, hb, turnLeft, portStep, hp] at h
    | reset | bringUp => cases he

/-- Where an operation with harmless events landing in it stops, it stops without them. -/
theorem turn_forgetHost_eq_none {s : State} (hs : s.harmlessPort) (h : turn s = none) : turn s.forgetHost = none := by
  cases hb : s.status.busy with
  | false => exact turn_of_not_busy hb
  | true => rw [turn_forgetHost hb, engineStep_eq_none_of_turn hs hb h, Option.map_none]

theorem movesLeft_forgetHost (s : State) : movesLeft s.forgetHost = movesLeft s := rfl

theorem movesLeft_congr_forgetHost {s t : State} (h : s.forgetHost = t.forgetHost) : movesLeft s = movesLeft t := by
  rw [← movesLeft_forgetHost s, h, movesLeft_forgetHost]

/-- R65: harmless events, and turns enough for them and for the engine's moves, leave the operation where the engine's moves
alone leave it. -/
theorem runTurns_forgetHost {k m : Nat} {s : State} (hs : s.harmlessPort) (hmax : s.params.calMax ≤ 15)
    (hk : movesLeft s + s.port.length ≤ k) (hm : movesLeft s ≤ m) :
    (runTurns k s).forgetHost = runTurns m s.forgetHost := by
  induction hn : movesLeft s + s.port.length using Nat.strong_induction_on generalizing s k m with
  | _ n ih =>
  cases ht : turn s with
  | none => rw [runTurns_of_turn_none ht, runTurns_of_turn_none (turn_forgetHost_eq_none hs ht)]
  | some t =>
    have hs' := turn_harmlessPort hs ht
    have hmax' : t.params.calMax ≤ 15 := by rwa [(turn_params_setup ht).1]
    obtain ⟨hlen, u, hu, htu⟩ | ⟨hlen, hts⟩ := turn_harmless hs ht
    · have hlt := engineStep_movesLeft hmax hu
      have hl := movesLeft_congr_forgetHost htu
      obtain ⟨k, rfl⟩ : ∃ j, k = j + 1 := ⟨k - 1, by omega⟩
      obtain ⟨m, rfl⟩ : ∃ j, m = j + 1 := ⟨m - 1, by omega⟩
      have hquiet : turn s.forgetHost = some t.forgetHost := by
        rw [turn_forgetHost (turn_eq_some ht).1, hu, Option.map_some, htu]
      rw [runTurns_succ ht, runTurns_succ hquiet]
      exact ih _ (by omega) hs' hmax' (by omega) (by omega) rfl
    · have hl := movesLeft_congr_forgetHost hts
      obtain ⟨k, rfl⟩ : ∃ j, k = j + 1 := ⟨k - 1, by omega⟩
      rw [runTurns_succ ht, ← hts]
      exact ih _ (by omega) hs' hmax' (by omega) (by omega) rfl

theorem runOperation_forgetHost {s : State} (hs : s.harmlessPort) (hmax : s.params.calMax ≤ 15)
    (hm : movesLeft s ≤ operationTurns) : (runOperation s).forgetHost = runOperation s.forgetHost := by
  have hquiet : runOperation s.forgetHost = runTurns operationTurns s.forgetHost := by
    simp [runOperation, State.forgetHost]
  rw [hquiet, runOperation]
  exact runTurns_forgetHost hs hmax (by omega) hm

/-- Two operations begun alike but for what host accesses may change end alike but for that. -/
theorem runOperation_forgetHost_congr {s t : State} (hs : s.harmlessPort) (ht : t.harmlessPort)
    (hmax : s.params.calMax ≤ 15) (hm : movesLeft s ≤ operationTurns) (h : s.forgetHost = t.forgetHost) :
    (runOperation s).forgetHost = (runOperation t).forgetHost := by
  have hp : t.params = s.params := (congrArg State.params h).symm
  rw [runOperation_forgetHost hs hmax hm, h,
    runOperation_forgetHost ht (hp ▸ hmax) (movesLeft_congr_forgetHost h ▸ hm)]

/-- R94: TRANSACT with good arguments takes no more moves than an operation is given turns for. -/
theorem movesLeft_beginTransact {p n : Nibble} (ha : badArgs p n = false) (c d : Byte) (s : State) :
    movesLeft (setBusy (latchTransact p n c d s)) ≤ operationTurns := by
  obtain ⟨hp, hn⟩ := badArgs_eq_false.1 ha
  have hlead := leadingPads_toNat hp
  have htrail := trailingCycles_toNat hp hn
  simp only [movesLeft, setBusy_engine, latchTransact_engine, operationTurns]
  omega

/-- R114: DETECT takes no more moves than an operation is given turns for. -/
theorem movesLeft_beginDetect {s : State} (hmax : s.params.calMax ≤ 15) (e : Nibble) :
    movesLeft (setBusy (latchDetect e s)) ≤ operationTurns := by
  simp only [movesLeft, setBusy_engine, setBusy_params, latchDetect_engine, latchDetect_params, operationTurns]
  omega

theorem Params.legal_calMax {P : Params} (h : P.legal = true) : 1 ≤ P.calMax ∧ P.calMax ≤ 15 := by
  simp only [Params.legal, Bool.and_eq_true, decide_eq_true_eq] at h
  omega

/-- What an accepted command word carries out (R78). -/
def instrBody : Instr → State → State
  | .transact p n c d => transactBody p n c d
  | .detect e => detectBody e

theorem exec_of_ready {s : State} (h : s.ready) (i : Instr) : exec i s = .next (instrBody i (accept s)) := by
  cases i <;> exact submit_of_ready h _

theorem instrBody_forgetHost_congr {s t : State} (hs : s.harmlessPort) (ht : t.harmlessPort) (hmax : s.params.calMax ≤ 15)
    (h : s.forgetHost = t.forgetHost) (i : Instr) : (instrBody i s).forgetHost = (instrBody i t).forgetHost := by
  cases i with
  | transact p n c d =>
    simp only [instrBody, transactBody]
    split
    · exact congrArg (finish .badArgs) h
    · rename_i ha
      exact runOperation_forgetHost_congr hs ht hmax (movesLeft_beginTransact (by simpa using ha) c d s)
        (congrArg (fun u => setBusy (latchTransact p n c d u)) h)
  | detect e =>
    exact runOperation_forgetHost_congr hs ht hmax (movesLeft_beginDetect hmax e)
      (congrArg (fun u => setBusy (latchDetect e u)) h)

/-- Settles O41: with the events and without them the engine makes the same moves, by induction on the turns of the operation;
an event that is no move touches only what the host may change. -/
theorem hostAccessesDoNotDisturbTheRunningOperation : Obligations.HostAccessesDoNotDisturbTheRunningOperation := by
  intro s i es hready hlegal hes
  have hr (port : List PortEvent) : ({ s with port := port } : State).ready := hready
  have hlanding : (accept { s with port := es }).harmlessPort := hes
  have hquiet : (accept { s with port := [] }).harmlessPort := nofun
  exact ⟨_, _, exec_of_ready (hr es) i, exec_of_ready (hr []) i,
    instrBody_forgetHost_congr hlanding hquiet (Params.legal_calMax hlegal).2 rfl i⟩

/-! ### An operation that nothing disturbs, move by move -/

/-- The engine makes a move while an operation runs. -/
def BusyMove (s t : State) : Prop := s.status.busy = true ∧ engineStep s = some t

/-- The engine gets from one state to another by moves of a running operation. -/
abbrev Moves : State → State → Prop := Relation.ReflTransGen BusyMove

theorem runTurns_of_moves {k : Nat} {s t : State} (hu : s.undisturbed) (hmax : s.params.calMax ≤ 15)
    (hk : movesLeft s ≤ k) (h : Moves s t) (ht : t.status.busy = false) : runTurns k s = t := by
  induction h using Relation.ReflTransGen.head_induction_on generalizing k with
  | refl => exact runTurns_of_turn_none (turn_of_not_busy ht) k
  | @head s u hsu _ ih =>
    obtain ⟨hb, hm⟩ := hsu
    have hframe := engineStep_moveFrame hm
    have hlt := engineStep_movesLeft hmax hm
    obtain ⟨k, rfl⟩ : ∃ j, k = j + 1 := ⟨k - 1, by omega⟩
    have hturn : turn s = some u := (turn_of_undisturbed hb hu).trans hm
    rw [runTurns_succ hturn]
    exact ih (by rw [State.undisturbed, hframe.port]; exact hu) (by rwa [hframe.params]) (by omega)

/-- An operation that nothing disturbs ends where its moves end. -/
theorem runOperation_of_moves {s t : State} (hu : s.undisturbed) (hmax : s.params.calMax ≤ 15)
    (hm : movesLeft s ≤ operationTurns) (h : Moves s t) (ht : t.status.busy = false) : runOperation s = t :=
  runTurns_of_moves hu hmax (by omega) h ht

/-! ### The engine's moves beside a procedure

The procedures of R93 and R113 touch neither `BUSY` nor the engine's internal registers: a state of a procedure is seen as
one of the running engine by giving it both. -/

/-- The state of a running operation, with these internal registers. -/
def running (e : Engine) (s : State) : State := { s with engine := e, status := { s.status with busy := true } }

@[simp] theorem running_params (e : Engine) (s : State) : (running e s).params = s.params := rfl
@[simp] theorem running_engine (e : Engine) (s : State) : (running e s).engine = e := rfl

theorem xfer_running {tx rx : Byte} {s t : State} (h : xfer tx s = some (rx, t)) (e : Engine) :
    xfer tx (running e s) = some (rx, running e t) := by
  obtain ⟨hc, hrx, rfl⟩ := xfer_eq_some h
  have hc' : (running e s).shift.completes ≠ some 0 := hc
  rw [xfer, if_neg hc', hrx]
  rfl

/-- The two exchanges of a pair (R13). -/
theorem xferPair_eq_some {f r : Frame} {s u : State} (h : xferPair f s = some (r, u)) :
    ∃ t, xfer f.1 s = some (r.1, t) ∧ xfer f.2 t = some (r.2, u) := by
  unfold xferPair at h
  split at h
  · cases h
  · rename_i ec t ht
    split at h
    · cases h
    · rename_i ed v hv
      obtain ⟨rfl, rfl⟩ := Prod.mk.inj (Option.some.inj h)
      exact ⟨t, ht, hv⟩

theorem xferPair_moveFrame {f r : Frame} {s u : State} (h : xferPair f s = some (r, u)) : MoveFrame s u := by
  obtain ⟨t, h1, h2⟩ := xferPair_eq_some h
  exact (xfer_moveFrame h1).trans (xfer_moveFrame h2)

/-- A row that exchanges pairs makes a pair exchange of a procedure in two moves (R94). -/
theorem moves_of_xferPair {f r : Frame} {opening : State → State} {closing : Frame → State → State} {e e' : Engine}
    {s u : State} (hopen : opening (running e s) = running e' s) (hhalf : e.half = .cmd)
    (hfirst : engineStep (running e s) = pairMove f opening closing (running e s))
    (hsecond : ∀ t, t.params = s.params →
      engineStep (running { e' with half := .data, rxHold := r.1 } t) =
        pairMove f opening closing (running { e' with half := .data, rxHold := r.1 } t))
    (h : xferPair f s = some (r, u)) :
    Moves (running e s) (closing r (running { e' with half := .cmd, rxHold := r.1 } u)) := by
  obtain ⟨t, h1, h2⟩ := xferPair_eq_some h
  have hm1 : engineStep (running e s) = some (running { e' with half := .data, rxHold := r.1 } t) := by
    rw [hfirst]
    simp only [pairMove, running_engine, hhalf, hopen, xfer_running h1]
    rfl
  have hm2 : engineStep (running { e' with half := .data, rxHold := r.1 } t) =
      some (closing r (running { e' with half := .cmd, rxHold := r.1 } u)) := by
    rw [hsecond t (xfer_moveFrame h1).params]
    simp only [pairMove, running_engine, xfer_running h2]
    rfl
  exact .head ⟨rfl, hm1⟩ (.single ⟨rfl, hm2⟩)

/-! ### The engine's moves beside the procedure of DETECT -/

/-- R108: the row `D_SENT` sends the sentinel. -/
theorem moves_of_sentinel {e : Engine} {r : Frame} {s u : State} (hf : e.fsm = .dSent) (hh : e.half = .cmd)
    (h : xferPair (sentinelFrame s.params) s = some (r, u)) :
    Moves (running e s) (running { e with fsm := .dScan, half := .cmd, rxHold := r.1 } u) :=
  moves_of_xferPair (closing := closeSentinel) (opening := id) rfl hh (by simp [engineStep, hf])
    (fun t ht => by simp [engineStep, hf, ht]) h

/-- R109, R110: a pair of the row `D_SCAN`, counted and captured; the row is left if the sentinel came back. -/
theorem moves_of_scanPair {e : Engine} {r : Frame} {s u : State} (hf : e.fsm = .dScan) (hh : e.half = .cmd)
    (hk : e.cnt.toNat < s.params.calMax) (h : xferPair (nopFrame s.params) s = some (r, u)) :
    Moves (running e s)
      (running { e with
        fsm := if r = sentinelFrame s.params then .dEnd true else e.fsm
        half := .cmd, cnt := e.cnt + 1#4, rxHold := r.1 } (capture r u)) := by
  have hpair := moves_of_xferPair (e := e) (e' := { e with cnt := e.cnt + 1#4 }) (opening := openScan) (closing := closeScan)
    rfl hh (by simp [engineStep, scanExhausted, hf, Nat.not_le.2 hk])
    (fun t ht => by simp [engineStep, scanExhausted, hf, ht]) h
  have hclose : closeScan r (running { e with half := .cmd, cnt := e.cnt + 1#4, rxHold := r.1 } u) =
      running { e with
        fsm := if r = sentinelFrame s.params then .dEnd true else e.fsm
        half := .cmd, cnt := e.cnt + 1#4, rxHold := r.1 } (capture r u) := by
    rw [closeScan, running_params, (xferPair_moveFrame h).params]
    split <;> rfl
  rwa [hclose] at hpair

/-- R109, R110, R113: the row `D_SCAN` makes the scan of the procedure, from a count of `k` with `left` cycles left. -/
theorem moves_of_scan {left k k' : Nat} {found : Bool} {e : Engine} {s u : State} (hf : e.fsm = .dScan)
    (hh : e.half = .cmd) (hk : e.cnt = BitVec.ofNat 4 k) (hleft : k + left = s.params.calMax) (hmax : s.params.calMax ≤ 15)
    (h : scan left k s = some (found, k', u)) :
    Moves (running e s) (running { e with
      fsm := .dEnd found, cnt := BitVec.ofNat 4 k', rxHold := if left = 0 then e.rxHold else u.echo.cmd } u) := by
  have hcnt : e.cnt.toNat = k := by rw [hk, BitVec.toNat_ofNat]; omega
  induction left generalizing k e s with
  | zero =>
    obtain ⟨rfl, rfl, rfl⟩ : false = found ∧ k = k' ∧ s = u := by simpa [scan] using h
    have hx : scanExhausted (running e s) = true := by simp [scanExhausted, hh, hcnt, ← hleft]
    refine .single ⟨rfl, ?_⟩
    simp only [engineStep, running_engine, hf, if_pos hx, ← hk]
    rfl
  | succ left ih =>
    unfold scan at h
    split at h
    · cases h
    · rename_i r t hpair
      have hmoves := moves_of_scanPair hf hh (by omega) hpair
      have hnext : e.cnt + 1#4 = BitVec.ofNat 4 (k + 1) := by rw [hk, BitVec.ofNat_add]
      have hp := (xferPair_moveFrame hpair).params
      rw [hnext, ← hh] at hmoves
      rw [if_neg (Nat.succ_ne_zero left)]
      split at h <;> rename_i hr
      · obtain ⟨rfl, rfl, rfl⟩ : true = found ∧ k + 1 = k' ∧ capture r t = u := by simpa using h
        rwa [if_pos hr] at hmoves
      · rw [if_neg hr] at hmoves
        have hrest := ih (e := { e with cnt := BitVec.ofNat 4 (k + 1), rxHold := r.1 }) (s := capture r t) hf hh rfl
          (by rw [capture_params, hp]; omega) (by rwa [capture_params, hp]) h (by rw [BitVec.toNat_ofNat]; omega)
        have hlast : (if left = 0 then r.1 else u.echo.cmd) = u.echo.cmd := by
          split
          · rename_i hl
            obtain ⟨-, -, rfl⟩ : false = found ∧ k + 1 = k' ∧ capture r t = u := by simpa [hl, scan] using h
            rfl
          · rfl
        rw [← hlast]
        exact hmoves.trans hrest

/-- R111: the report of a count that was found. -/
theorem reportCount_true (k e : Nibble) (s : State) : reportCount true k e s =
    finish (if k = e then .ok else .lengthMismatch) (setCalOk (decide (k = e)) (setCal k e s)) := by
  by_cases hk : k = e <;> simp [reportCount, hk]

/-- The row `D_END` reports as the procedure does. -/
theorem endDetect_running (found : Bool) (e : Engine) (u : State) :
    endDetect found (running e u) = { reportCount found e.cnt e.totQ (csHigh u) with engine := { e with fsm := .idle } } := by
  cases found with
  | false => rfl
  | true => rw [endDetect, reportCount_true, reportCount_true]; rfl

theorem reportCount_not_busy (found : Bool) (k e : Nibble) (s : State) : (reportCount found k e s).status.busy = false := by
  unfold reportCount
  split_ifs <;> rfl

/-- R113, R114: an operation of DETECT that nothing disturbs ends as its procedure does, in all but the internal registers. -/
theorem detectBody_of_procedure {e : Nibble} {s t u : State} {r : Frame} {found : Bool} {k : Nat} (hu : s.undisturbed)
    (hlegal : s.params.legal = true) (hsent : xferPair (sentinelFrame s.params) (csLow s) = some (r, t))
    (hscan : scan s.params.calMax 0 t = some (found, k, u)) :
    detectBody e s = { reportCount found (BitVec.ofNat 4 k) e (csHigh u) with
      engine := { s.engine with
        fsm := .idle, half := .cmd, opQ := .detect, totQ := e, rxHold := u.echo.cmd, cnt := BitVec.ofNat 4 k } } := by
  obtain ⟨hmin, hmax⟩ := Params.legal_calMax hlegal
  have hp : t.params = s.params := (xferPair_moveFrame hsent).params
  have hstart : Moves (setBusy (latchDetect e s))
      (running { s.engine with fsm := .dSent, half := .cmd, opQ := .detect, totQ := e, cnt := 0#4 } (csLow s)) :=
    .single ⟨rfl, rfl⟩
  have hmid := (hstart.trans (moves_of_sentinel rfl rfl hsent)).trans
    (moves_of_scan rfl rfl rfl (by rw [hp]; omega) (by rwa [hp]) hscan)
  have hend := hmid.tail ⟨rfl, rfl⟩
  rw [endDetect_running, if_neg (by omega)] at hend
  refine runOperation_of_moves hu hmax (movesLeft_beginDetect hmax e) hend (reportCount_not_busy _ _ _ _)

/-! ### The reference chain as a shift register of pairs -/

theorem stagesOf_append {n : Nat} {q : List Byte} (h : q.length = 2 * n) (q' : List Byte) :
    stagesOf (q ++ q') = stagesOf q ++ stagesOf q' := by
  induction n generalizing q with
  | zero => rw [List.length_eq_zero_iff.1 h]; rfl
  | succ n ih =>
    obtain ⟨d, c, q, rfl⟩ : ∃ d c q₁, q = d :: c :: q₁ := by
      match q, h with
      | d :: c :: q₁, _ => exact ⟨d, c, q₁, rfl⟩
    have hq : q.length = 2 * n := by simpa [Nat.mul_add] using h
    simp only [List.cons_append, stagesOf, ih hq]

/-- The pair exchange of a reference chain (R13, R54): the pair received and the chain after it. -/
def Chain.exchangePair (f : Frame) (ch : Chain) : Frame × Chain :=
  let first := ch.exchange f.1
  let second := first.2.exchange f.2
  ((first.1, second.1), second.2)

theorem Chain.exchangePair_wf {ch : Chain} (h : ch.wf) (f : Frame) : (ch.exchangePair f).2.wf :=
  Chain.exchange_wf (Chain.exchange_wf h f.1) f.2

/-- R54: the top byte of the queue leaves it, and the byte sent is in at the bottom. -/
theorem Chain.exchange_of_queue {ch : Chain} {q : List Byte} {b : Byte} (h : ch.queue = q ++ [b]) (tx : Byte) :
    ch.exchange tx = (b, { ch with queue := tx :: q }) := by
  have hq : tx :: ch.queue = (tx :: q) ++ [b] := by rw [h, List.cons_append]
  simp only [Chain.exchange, hq, List.getLast_append_singleton, List.dropLast_concat]

/-- R53, R54: a pair exchange shifts the frame sent in below the stages and the top stage out, which is the pair received. -/
theorem Chain.exchangePair_stages {ch : Chain} (h : ch.wf) (f : Frame) :
    (ch.exchangePair f).2.stages ++ [(ch.exchangePair f).1] = f :: ch.stages := by
  obtain ⟨hdepth, hlen, -⟩ := h
  obtain ⟨d, c, htop⟩ := List.length_eq_two.1 (show (ch.queue.drop (2 * (ch.depth - 1))).length = 2 by
    rw [List.length_drop]; omega)
  have hrest : (ch.queue.take (2 * (ch.depth - 1))).length = 2 * (ch.depth - 1) := by rw [List.length_take]; omega
  have hqueue := (List.take_append_drop (2 * (ch.depth - 1)) ch.queue).symm
  rw [htop] at hqueue
  generalize ch.queue.take (2 * (ch.depth - 1)) = q at hqueue hrest
  have hpair : ch.exchangePair f = ((c, d), { ch with queue := f.2 :: f.1 :: q }) := by
    rw [Chain.exchangePair, Chain.exchange_of_queue (q := q ++ [d]) (b := c) (by rw [hqueue]; simp)]
    rw [Chain.exchange_of_queue (q := f.1 :: q) (b := d) rfl]
  rw [hpair, Chain.stages, Chain.stages, hqueue, stagesOf_append hrest]
  rfl

/-- The environment is a reference chain with these stages, bottom board first, and these output registers, and at least `k`
more exchanges complete. -/
structure State.OnChain (s : State) (stages : List Frame) (out : Memory) (k : Nat) : Prop where
  env : ∃ ch, s.env = .reference ch ∧ ch.wf ∧ ch.stages = stages ∧ ch.out = out
  completes : s.completesAtLeast k

/-- Of the exchanges that complete, one is made. -/
theorem xfer_of_completes {k : Nat} {s : State} (h : s.completesAtLeast (k + 1)) (tx : Byte) :
    ∃ t, xfer tx s = some ((s.env.answer s.rxDraws tx).1, t) ∧ t.env = (s.env.answer s.rxDraws tx).2.1 ∧
      t.completesAtLeast k := by
  have hc : s.shift.completes ≠ some 0 := fun h0 => by simpa using h 0 h0
  refine ⟨_, if_neg hc, rfl, fun c' hc' => ?_⟩
  obtain ⟨c, hs, rfl⟩ := Option.map_eq_some_iff.1 hc'
  have := h c hs
  omega

/-- R13, R54: on a reference chain a pair exchange shifts the frame sent in and the top stage out. -/
theorem xferPair_onChain {stages stages' : List Frame} {out : Memory} {k : Nat} {f r : Frame} {s : State}
    (h : s.OnChain stages out (k + 2)) (hshift : f :: stages = stages' ++ [r]) :
    ∃ t, xferPair f s = some (r, t) ∧ t.OnChain stages' out k ∧ t.params = s.params ∧ t.csN = s.csN := by
  obtain ⟨⟨ch, henv, hwf, rfl, rfl⟩, hc⟩ := h
  obtain ⟨t, ht, htenv, htc⟩ := xfer_of_completes hc f.1
  obtain ⟨u, hu, huenv, huc⟩ := xfer_of_completes htc f.2
  rw [henv] at ht htenv
  rw [htenv] at hu huenv
  have hpair : xferPair f s = some ((ch.exchangePair f).1, u) := by
    rw [xferPair, ht]
    simp only [hu]
    rfl
  obtain ⟨hstages, hr⟩ := List.append_inj' ((Chain.exchangePair_stages hwf f).trans hshift) rfl
  obtain ⟨-, -, -, -, hcs, -⟩ := xfer_frame ht
  obtain ⟨-, -, -, -, hcs', -⟩ := xfer_frame hu
  refine ⟨u, ?_, ⟨⟨_, huenv, Chain.exchangePair_wf hwf f, hstages, rfl⟩, huc⟩, (xferPair_moveFrame hpair).params,
    hcs'.trans hcs⟩
  rw [hpair, List.singleton_inj.1 hr]

/-! ### The scan on a reference chain -/

/-- R109, R110: the scan goes on past stages that hold no sentinel, a no-op pair shifted in for each. -/
theorem scan_past {keep gone : List Frame} {out : Memory} {c left k : Nat} {s : State}
    (h : s.OnChain (keep ++ gone) out (c + 2 * gone.length)) (hgone : ∀ f ∈ gone, f ≠ sentinelFrame s.params) :
    ∃ t, scan (left + gone.length) k s = scan left (k + gone.length) t ∧
      t.OnChain (List.replicate gone.length (nopFrame s.params) ++ keep) out c ∧ t.params = s.params ∧ t.csN = s.csN := by
  induction gone using List.reverseRecOn generalizing keep k s with
  | nil => exact ⟨s, rfl, by simpa using h, rfl, rfl⟩
  | append_singleton gone f ih =>
    have hlen : (gone ++ [f]).length = gone.length + 1 := by simp
    rw [hlen, show c + 2 * (gone.length + 1) = c + 2 * gone.length + 2 by omega] at h
    obtain ⟨t, hpair, hchain, hparams, hcs⟩ := xferPair_onChain (f := nopFrame s.params) (r := f)
      (stages' := (nopFrame s.params :: keep) ++ gone) h (by simp)
    have hf : f ≠ sentinelFrame s.params := hgone f (by simp)
    obtain ⟨u, hscan, huchain, huparams, hucs⟩ := ih (k := k + 1) (s := capture f t) ⟨hchain.env, hchain.completes⟩
      (fun g hg => by rw [capture_params, hparams]; exact hgone g (by simp [hg]))
    refine ⟨u, ?_, ?_, huparams.trans hparams, hucs.trans hcs⟩
    · rw [hlen, ← Nat.add_assoc, scan, hpair]
      simp only [if_neg hf]
      rw [hscan]
      congr 1
      omega
    · rw [capture_params, hparams] at huchain
      simpa [hlen, List.replicate_succ'] using huchain

/-- R110: the scan ends with a match where the sentinel is in the top stage. -/
theorem scan_match {keep : List Frame} {out : Memory} {c left k : Nat} {s : State}
    (h : s.OnChain (keep ++ [sentinelFrame s.params]) out (c + 2)) :
    ∃ t, scan (left + 1) k s = some (true, k + 1, t) ∧ t.OnChain (nopFrame s.params :: keep) out c ∧
      t.params = s.params ∧ t.csN = s.csN := by
  obtain ⟨t, hpair, hchain, hparams, hcs⟩ :=
    xferPair_onChain (f := nopFrame s.params) (stages' := nopFrame s.params :: keep) h rfl
  refine ⟨capture (sentinelFrame s.params) t, ?_, ⟨hchain.env, hchain.completes⟩, hparams, hcs⟩
  rw [scan, hpair]
  simp only [if_pos]

/-- R109, R110, R115: the scan finds the sentinel one pair after the stages above it, if its bound allows as many pairs. -/
theorem scan_finds {keep gone : List Frame} {out : Memory} {c bound : Nat} {s : State}
    (h : s.OnChain (keep ++ [sentinelFrame s.params] ++ gone) out (c + 2 * (gone.length + 1)))
    (hgone : ∀ f ∈ gone, f ≠ sentinelFrame s.params) (hn : gone.length + 1 ≤ bound) :
    ∃ t, scan bound 0 s = some (true, gone.length + 1, t) ∧
      t.OnChain (List.replicate (gone.length + 1) (nopFrame s.params) ++ keep) out c ∧ t.csN = s.csN := by
  obtain ⟨left, rfl⟩ : ∃ left, bound = left + 1 + gone.length := ⟨bound - (gone.length + 1), by omega⟩
  rw [show c + 2 * (gone.length + 1) = c + 2 + 2 * gone.length by omega] at h
  obtain ⟨t, hpast, htchain, htparams, htcs⟩ := scan_past (left := left + 1) (k := 0) h hgone
  rw [← List.append_assoc, ← htparams] at htchain
  obtain ⟨u, hmatch, huchain, -, hucs⟩ := scan_match (left := left) (k := gone.length) htchain
  rw [htparams, ← List.cons_append, ← List.replicate_succ] at huchain
  exact ⟨u, by rw [hpast, Nat.zero_add, hmatch], huchain, hucs.trans htcs⟩

/-! ### DETECT on a reference chain -/

/-- R55: the rising edge latches every stage and leaves the queue. -/
theorem csHigh_onChain {stages : List Frame} {out : Memory} {k : Nat} {s : State} (h : s.OnChain stages out k)
    (hcs : s.csN = .low) :
    ∃ ch, (csHigh s).env = .reference ch ∧ ch.stages = stages ∧ ch.out = latchFrom 1 stages out := by
  obtain ⟨⟨ch, henv, -, rfl, rfl⟩, -⟩ := h
  exact ⟨ch.latch, by rw [csHigh_env, if_pos hcs, henv]; rfl, rfl, rfl⟩

/-- R111: on a chain that returns the sentinel after stages without it, one pair later than there are such stages, DETECT
reports that count; its last edge latches the no-op pairs shifted in and, above them, the stages left below the sentinel. -/
theorem detectBody_of_match {stages keep gone : List Frame} {top : Frame} {out : Memory} {s : State} (e : Nibble)
    (hu : s.undisturbed) (hlegal : s.params.legal = true) (h : s.OnChain stages out (2 * (gone.length + 1) + 2))
    (hshift : sentinelFrame s.params :: stages = keep ++ [sentinelFrame s.params] ++ gone ++ [top])
    (hgone : ∀ f ∈ gone, f ≠ sentinelFrame s.params) (hn : gone.length + 1 ≤ s.params.calMax) :
    ∃ ch', (detectBody e s).env = .reference ch' ∧
      ch'.stages = List.replicate (gone.length + 1) (nopFrame s.params) ++ keep ∧ ch'.out = latchFrom 1 ch'.stages out ∧
      (detectBody e s).cal.detected.toNat = gone.length + 1 ∧ (detectBody e s).cal.expected = e ∧
      (detectBody e s).status.kind = (if e.toNat = gone.length + 1 then .ok else .lengthMismatch) ∧
      (detectBody e s).status.calOk = decide (e.toNat = gone.length + 1) := by
  obtain ⟨-, hmax⟩ := Params.legal_calMax hlegal
  have hlow : (csLow s).OnChain stages out (2 * (gone.length + 1) + 2) := ⟨h.env, h.completes⟩
  obtain ⟨t, hsent, htchain, htparams, htcs⟩ := xferPair_onChain hlow hshift
  have hp : t.params = s.params := htparams
  rw [← Nat.zero_add (2 * _), ← hp] at htchain
  obtain ⟨u, hscan, huchain, hucs⟩ := scan_finds htchain (by rwa [hp]) hn
  rw [hp] at huchain
  obtain ⟨ch', henv, hstages, hout⟩ := csHigh_onChain huchain (hucs.trans htcs)
  have hcount : (BitVec.ofNat 4 (gone.length + 1)).toNat = gone.length + 1 := by rw [BitVec.toNat_ofNat]; omega
  have heq : BitVec.ofNat 4 (gone.length + 1) = e ↔ e.toNat = gone.length + 1 := by rw [← BitVec.toNat_inj, hcount, eq_comm]
  rw [detectBody_of_procedure hu hlegal hsent hscan, reportCount_true]
  refine ⟨ch', henv, hstages, by rw [hstages, hout], hcount, rfl, ?_, ?_⟩
  · simp [Status.finish, heq]
  · simp [Status.finish, heq]

/-- R53: the stages of a chain of `M` boards, but for the top one, are `stage(1)` to `stage(M - 1)`. -/
theorem Chain.stages_eq_append_top {ch : Chain} (h : ch.wf) : ∃ low top, ch.stages = low ++ [top] ∧
    low.length + 1 = ch.depth ∧ ∀ f ∈ low, ∃ j, 1 ≤ j ∧ j < ch.depth ∧ ch.stage j = some f := by
  have hlen : ch.stages.length = ch.depth := stagesOf_length h.2.1
  have hdepth := h.1
  obtain hnil | ⟨low, top, hst⟩ := List.eq_nil_or_concat' ch.stages
  · simp [hnil] at hlen
    omega
  · have hlow : low.length + 1 = ch.depth := by rw [← hlen, hst]; simp
    refine ⟨low, top, hst, hlow, fun f hf => ?_⟩
    obtain ⟨i, hi, rfl⟩ := List.getElem_of_mem hf
    exact ⟨i + 1, by omega, by omega, by simp [Chain.stage, hst, List.getElem?_append_left hi]⟩

/-- R55, R146: latching the no-op pair in every board changes no register but the no-op register. -/
theorem latchFrom_noOp_read (P : Params) (n b : Nat) (m : Memory) {b' : Nat} {r : Byte} (hr : r ≠ P.nopCmd) :
    (latchFrom b (List.replicate n (nopFrame P)) m).read (outAddr b' r) = m.read (outAddr b' r) := by
  refine latchFrom_read_other _ _ _ _ fun k f hf heq => hr ?_
  obtain rfl : nopFrame P = f := List.eq_of_mem_replicate (List.mem_of_getElem? hf) |>.symm
  exact (outAddr_injective heq).2

/-- Settles O36: the scan goes past the stages below the top, which hold no sentinel, and then meets the one it sent. -/
theorem detectCountsTheBoards : Obligations.DetectCountsTheBoards := by
  intro s ch e hready hu hlegal henv hwf hmax hstale hc
  obtain ⟨low, top, hst, hlen, hlow⟩ := Chain.stages_eq_append_top hwf
  have hchain : (accept s).OnChain ch.stages ch.out (2 * (low.length + 1) + 2) :=
    ⟨⟨ch, henv, hwf, rfl, rfl⟩, by rw [hlen]; exact hc⟩
  have hno : ∀ f ∈ low, f ≠ sentinelFrame s.params := by
    intro f hf
    obtain ⟨j, h1, hj, hstage⟩ := hlow f hf
    exact hstale j f h1 hj hstage
  obtain ⟨ch', hch', hstages, hout, hdet, hexp, hkind, hok⟩ := detectBody_of_match (s := accept s) (keep := [])
    (gone := low) (top := top) e hu hlegal hchain (by simp [hst]) hno (by rw [hlen]; exact hmax)
  rw [List.append_nil] at hstages
  rw [hlen] at hdet hkind hok
  refine ⟨_, ch', exec_of_ready hready _, hch', hdet, hexp, hkind, hok, ?_, fun b r hr => ?_⟩
  · simp [Chain.flushed, hstages]
  · rw [hout, hstages]
    exact latchFrom_noOp_read _ _ _ _ hr

end Sys2Proof.Machine

/-! Proofs of O1, O2, O3, O4, O5, O18, O20, O21, O24, O25, O31, O32 and O35 (family `30_encoding`): the decoder, the encoder and
the assembler; a command word at the port; the two operations beside their procedures, and what the procedures do. -/

namespace Sys2Proof

/-! ### The fields of a command word -/

/-- R69: a command word is its six fields, bit 31 first. -/
theorem Word.eq_append_fields (w : Word) :
    w = Word.op w ++ Word.pos w ++ Word.tot w ++ Word.rsvd w ++ Word.cmdb w ++ Word.datb w := by
  refine BitVec.eq_of_getLsbD_eq fun i hi => ?_
  simp only [BitVec.getLsbD_append, Word.op, Word.pos, Word.tot, Word.rsvd, Word.cmdb, Word.datb, BitVec.getLsbD_extractLsb']
  interval_cases i <;> simp

theorem Word.eq_iff_fields {w v : Word} :
    w = v ↔ Word.op w = Word.op v ∧ Word.pos w = Word.pos v ∧ Word.tot w = Word.tot v ∧ Word.rsvd w = Word.rsvd v ∧
      Word.cmdb w = Word.cmdb v ∧ Word.datb w = Word.datb v := by
  refine ⟨by rintro rfl; simp, fun ⟨hop, hpos, htot, hrsvd, hcmdb, hdatb⟩ => ?_⟩
  rw [Word.eq_append_fields w, hop, hpos, htot, hrsvd, hcmdb, hdatb, ← Word.eq_append_fields v]

/-- R71: the pattern of TRANSACT fixes `OP` and `RSVD`. -/
theorem Word.isTransact_iff {w : Word} : Word.isTransact w = true ↔ Word.op w = 0x1#4 ∧ Word.rsvd w = 0x0#4 := by
  have hones (x : Nibble) : x &&& 0xF#4 = x := BitVec.and_allOnes
  simp [Word.isTransact, Word.eq_iff_fields, Word.op, Word.pos, Word.tot, Word.rsvd, Word.cmdb, Word.datb,
    BitVec.extractLsb'_and, hones]

/-- R72: the pattern of DETECT fixes all but `TOT`. -/
theorem Word.isDetect_iff {w : Word} :
    Word.isDetect w = true ↔ Word.op w = 0x2#4 ∧ Word.pos w = 0x0#4 ∧ Word.rsvd w = 0x0#4 ∧ Word.cmdb w = 0x00#8 ∧
      Word.datb w = 0x00#8 := by
  have hones (x : Nibble) : x &&& 0xF#4 = x := BitVec.and_allOnes
  have hones' (x : Byte) : x &&& 0xFF#8 = x := BitVec.and_allOnes
  simp [Word.isDetect, Word.eq_iff_fields, Word.op, Word.pos, Word.tot, Word.rsvd, Word.cmdb, Word.datb,
    BitVec.extractLsb'_and, hones, hones']

/-- R78: no word matches both patterns. -/
theorem Word.not_isTransact_of_isDetect {w : Word} (h : Word.isDetect w = true) : Word.isTransact w = false := by
  rw [← Bool.not_eq_true, Word.isTransact_iff, (Word.isDetect_iff.1 h).1]
  simp

theorem Word.op_of_legal {w : Word} (h : Word.legal w = true) : Word.op w = 0x1#4 ∨ Word.op w = 0x2#4 := by
  rw [Word.legal, Bool.or_eq_true, Word.isTransact_iff, Word.isDetect_iff] at h
  exact h.imp And.left And.left

/-- R75: the two patterns, as match and mask. -/
theorem Word.legal_iff {w : Word} :
    Word.legal w = true ↔ (w &&& 0xF00F0000#32) = 0x10000000#32 ∨ (w &&& 0xFF0FFFFF#32) = 0x20000000#32 := by
  rw [Word.legal, Bool.or_eq_true, Word.isTransact, Word.isDetect, beq_iff_eq, beq_iff_eq]

/-! ### The decoder -/

theorem decode_of_isTransact {w : Word} (h : Word.isTransact w = true) :
    decode w = .ok (.transact (Word.pos w) (Word.tot w) (Word.cmdb w) (Word.datb w)) := if_pos h

theorem decode_of_isDetect {w : Word} (h : Word.isDetect w = true) : decode w = .ok (.detect (Word.tot w)) := by
  simp [decode, Word.not_isTransact_of_isDetect h, h]

/-- R74, R75: a word of neither pattern is refused, and its `OP` says why. -/
theorem decode_of_not_legal {w : Word} (h : Word.legal w = false) :
    decode w = .error (if Word.op w = 0x1#4 ∨ Word.op w = 0x2#4 then .reservedFieldNonzero else .unassignedOpcode) := by
  rw [Word.legal, Bool.or_eq_false_iff] at h
  obtain ⟨ht, hd⟩ := h
  simp only [decode, ht, hd, Bool.false_eq_true, if_false]
  split <;> rfl

/-- R79: a legal word decodes, and no bit of it is lost. -/
theorem decode_of_legal {w : Word} (h : Word.legal w = true) : ∃ i, decode w = .ok i ∧ encode i = w := by
  rcases Bool.or_eq_true _ _ ▸ h with ht | hd
  · refine ⟨_, decode_of_isTransact ht, ?_⟩
    obtain ⟨hop, hrsvd⟩ := Word.isTransact_iff.1 ht
    conv_rhs => rw [Word.eq_append_fields w, hop, hrsvd]
    rfl
  · refine ⟨_, decode_of_isDetect hd, ?_⟩
    obtain ⟨hop, hpos, hrsvd, hcmdb, hdatb⟩ := Word.isDetect_iff.1 hd
    conv_rhs => rw [Word.eq_append_fields w, hop, hpos, hrsvd, hcmdb, hdatb]
    rfl

/-- The operands stand in the fields of TRANSACT's word (R71, R73). -/
theorem encode_transact_fields (p n : Nibble) (c d : Byte) :
    Word.pos (encode (.transact p n c d)) = p ∧ Word.tot (encode (.transact p n c d)) = n ∧
      Word.cmdb (encode (.transact p n c d)) = c ∧ Word.datb (encode (.transact p n c d)) = d := by
  refine ⟨?_, ?_, ?_, ?_⟩ <;> refine Machine.field_eq_of_getLsbD fun i hi => ?_ <;>
    rw [encode_transact_getLsbD p n c d (by omega)] <;> interval_cases i <;> rfl

theorem encode_detect_tot (e : Nibble) : Word.tot (encode (.detect e)) = e := by
  refine Machine.field_eq_of_getLsbD fun i hi => ?_
  rw [encode_detect_getLsbD e (by omega)]
  interval_cases i <;> rfl

/-- Settles O1: the word of an instruction matches its pattern, and its fields are the operands. -/
theorem decodeOfEncodeIsTheInstruction : Obligations.DecodeOfEncodeIsTheInstruction := by
  intro i
  cases i with
  | transact p n c d =>
    obtain ⟨hp, hn, hc, hd⟩ := encode_transact_fields p n c d
    rw [decode_of_isTransact (encode_transact_isTransact p n c d), hp, hn, hc, hd]
  | detect e => rw [decode_of_isDetect (encode_detect_isDetect e), encode_detect_tot]

/-- Settles O2: only a legal word decodes, and it is put together again from its fields. -/
theorem encodeOfDecodeIsTheWord : Obligations.EncodeOfDecodeIsTheWord := by
  intro w i h
  cases hw : Word.legal w with
  | true =>
    obtain ⟨j, hj, he⟩ := decode_of_legal hw
    rw [h] at hj
    rwa [Except.ok.inj hj]
  | false => simp [decode_of_not_legal hw] at h

/-- Settles O3: by whether the word is legal; a legal word has an assigned `OP`. -/
theorem decoderAcceptsExactlyTheLegalWords : Obligations.DecoderAcceptsExactlyTheLegalWords := by
  intro w
  rw [← Word.legal_iff]
  change _ ∧ (_ ↔ Word.op w ≠ _ ∧ Word.op w ≠ _)
  cases hw : Word.legal w with
  | true =>
    obtain ⟨i, hi, -⟩ := decode_of_legal hw
    have hop := Word.op_of_legal hw
    refine ⟨by simp [hi], ?_⟩
    simp only [hi, reduceCtorEq, false_iff, not_and_or, not_not]
    exact hop
  | false => simp [decode_of_not_legal hw]

/-- Settles O4: both functions evaluated on the words of R83. -/
theorem encodingExamplesHold : Obligations.EncodingExamplesHold :=
  ⟨rfl, rfl, rfl, rfl, rfl, rfl, rfl, rfl, rfl, rfl, rfl, rfl, rfl, rfl, rfl⟩

/-! ### The assembler -/

theorem assemble_of_not_wellFormed {l : AsmLine} (h : l.wellFormed = false) : assemble l = none := by
  cases l <;> exact if_neg (by simp [h])

/-- R71, R81: the formula of a TRANSACT line is the number of the encoder's word. -/
theorem encode_transact_toNat {p n c d : Nat} (hp : p < 16) (hn : n < 16) (hc : c < 256) (hd : d < 256) :
    (encode (.transact (BitVec.ofNat 4 p) (BitVec.ofNat 4 n) (BitVec.ofNat 8 c) (BitVec.ofNat 8 d))).toNat =
      0x10000000 ||| p <<< 24 ||| n <<< 20 ||| c <<< 8 ||| d := by
  simp only [encode, BitVec.toNat_append, BitVec.toNat_ofNat, Nat.mod_eq_of_lt, hp, hn, hc, hd, Nat.reducePow,
    Nat.shiftLeft_or_distrib, ← Nat.shiftLeft_add]
  simp

theorem encode_detect_toNat {e : Nat} (he : e < 16) :
    (encode (.detect (BitVec.ofNat 4 e))).toNat = 0x20000000 ||| e <<< 20 := by
  simp only [encode, BitVec.toNat_append, BitVec.toNat_ofNat, Nat.mod_eq_of_lt, he, Nat.reducePow,
    Nat.shiftLeft_or_distrib, ← Nat.shiftLeft_add]
  simp

theorem assemble_transact {p n c d : Nat} (hp : p < 16) (hn : n < 16) (hc : c < 256) (hd : d < 256) :
    assemble (.transact p n c d) = some (BitVec.ofNat 32 (0x10000000 ||| p <<< 24 ||| n <<< 20 ||| c <<< 8 ||| d)) := by
  simp [assemble, AsmLine.wellFormed, hp, hn, hc, hd]

theorem assemble_detect {e : Nat} (he : e < 16) :
    assemble (.detect e) = some (BitVec.ofNat 32 (0x20000000 ||| e <<< 20)) := by
  simp [assemble, AsmLine.wellFormed, he]

/-- Settles O5: in range each formula is the number of the encoder's word; out of range the line is not well formed. -/
theorem assemblerWritesTheEncodings : Obligations.AssemblerWritesTheEncodings := by
  refine ⟨fun p n c d hp hn hc hd => ?_, fun e he => ?_, fun v hv => ?_, fun p n c d h => ?_, fun e he => ?_, fun v hv => ?_⟩
  · refine ⟨assemble_transact hp hn hc hd, ?_⟩
    rw [assemble_transact hp hn hc hd, ← encode_transact_toNat hp hn hc hd, BitVec.ofNat_toNat, BitVec.setWidth_eq]
  · refine ⟨assemble_detect he, ?_⟩
    rw [assemble_detect he, ← encode_detect_toNat he, BitVec.ofNat_toNat, BitVec.setWidth_eq]
  · exact if_pos (decide_eq_true hv)
  · refine assemble_of_not_wellFormed ?_
    simp only [AsmLine.wellFormed, Bool.and_eq_false_iff, decide_eq_false_iff_not]
    omega
  · exact assemble_of_not_wellFormed (decide_eq_false he.not_gt)
  · exact assemble_of_not_wellFormed (decide_eq_false hv.not_gt)

end Sys2Proof

namespace Sys2Proof.Machine

/-! ### A command word at the port -/

theorem step_of_command {s : State} {rest : List PortEvent} {w : Word} (hp : s.port = .write 0 4 w :: rest) :
    step s = writeCommand exec w { s with port := rest } := by
  simp [step, portStep, hp, accessAllowed]

theorem writeCommand_of_decode {w : Word} {i : Instr} (h : decode w = .ok i) (s : State) :
    writeCommand exec w s = exec i s := by
  simp [writeCommand, h]

/-- R74, R75: on a ready framer an illegal word is accepted and rejected. -/
theorem writeCommand_of_not_legal {w : Word} (h : Word.legal w = false) {s : State} (hs : s.ready) :
    writeCommand exec w s = .next (rejectIllegal (accept s)) := by
  rw [writeCommand, decode_of_not_legal h]
  exact submit_of_ready hs _

/-- Settles O18: the write is of the interface and to `CMD`, and its word decodes. -/
theorem stepRunsTheDecodedInstruction : Obligations.StepRunsTheDecodedInstruction :=
  fun _ _ _ _ hp hi => (step_of_command hp).trans (writeCommand_of_decode hi _)

/-- Settles O20: while busy every command word is dropped. -/
theorem wordWrittenWhileBusyIsDropped : Obligations.WordWrittenWhileBusyIsDropped :=
  fun s rest w hs hb hp => (step_of_command hp).trans (writeCommand_of_busy (s := { s with port := rest }) hs hb w)

/-- Settles O21: a word that matches neither pattern is not legal, and its rejection writes `STATUS` alone. -/
theorem illegalWordIsRejected : Obligations.IllegalWordIsRejected := by
  intro s rest w hs hp hw
  rw [← Word.legal_iff, Bool.not_eq_true] at hw
  rw [step_of_command hp, writeCommand_of_not_legal hw (s := { s with port := rest }) hs]
  rfl

/-! ### The operands latched for an operation -/

/-- What the turns of an operation leave alone, short of a reset: the latched operands, the parameters and the bring-up setup;
bus events are only added. -/
structure OperandFrame (s t : State) : Prop where
  opQ : t.engine.opQ = s.engine.opQ
  posQ : t.engine.posQ = s.engine.posQ
  totQ : t.engine.totQ = s.engine.totQ
  cmdQ : t.engine.cmdQ = s.engine.cmdQ
  datQ : t.engine.datQ = s.engine.datQ
  params : t.params = s.params
  setup : t.shift.setup = s.shift.setup
  trace : s.trace <+: t.trace

theorem OperandFrame.refl (s : State) : OperandFrame s s := ⟨rfl, rfl, rfl, rfl, rfl, rfl, rfl, List.prefix_rfl⟩

theorem OperandFrame.trans {s t u : State} (h : OperandFrame s t) (k : OperandFrame t u) : OperandFrame s u where
  opQ := k.opQ.trans h.opQ
  posQ := k.posQ.trans h.posQ
  totQ := k.totQ.trans h.totQ
  cmdQ := k.cmdQ.trans h.cmdQ
  datQ := k.datQ.trans h.datQ
  params := k.params.trans h.params
  setup := k.setup.trans h.setup
  trace := h.trace.trans k.trace

theorem MoveFrame.operandFrame {s t : State} (h : MoveFrame s t) : OperandFrame s t := { h with }

theorem turn_operandFrame {s t : State} (hn : s.noReset) (h : turn s = some t) : OperandFrame s t := by
  obtain ⟨-, ⟨-, hm⟩ | ⟨_, _, _, -, rfl⟩ | ⟨_, _, _, _, -, -, rfl⟩ | ⟨_, _, _, -, rfl⟩ | ⟨rest, -, rfl⟩ | ⟨_, hp, -⟩⟩ :=
    turn_eq_some h
  · exact (engineStep_moveFrame hm).operandFrame
  · exact { OperandFrame.refl s with }
  · exact { OperandFrame.refl s with }
  · exact { OperandFrame.refl s with }
  · exact { (advance_moveFrame { s with port := rest }).operandFrame with }
  · exact absurd (hp ▸ List.mem_cons_self) hn

theorem runOperation_operandFrame {s : State} (hn : s.noReset) : OperandFrame s (runOperation s) :=
  runOperation_induction_of_noReset hn (.refl s) fun _ _ hn' hq ht => hq.trans (turn_operandFrame hn' ht)

/-- Settles O35: DETECT latches `op_q` and `tot_q` alone, and no turn of its operation writes a latched operand. -/
theorem detectLeavesTransactOperandsAlone : Obligations.DetectLeavesTransactOperandsAlone := by
  intro s t e hready hn h
  obtain rfl : detectBody e (accept s) = t := by simpa [exec_of_ready hready, instrBody] using h
  obtain ⟨hop, hpos, htot, hcmd, hdat, hparams, hsetup, htrace⟩ :=
    runOperation_operandFrame (s := setBusy (latchDetect e (accept s))) hn
  exact ⟨hpos, hcmd, hdat, htot, hop, hparams, hsetup, htrace⟩

/-! ### TRANSACT ends within its turns

Only the scan of DETECT needs legal parameters for a move to lower the bound on the moves left: TRANSACT is not asked for
them. -/

/-- R94: a pair of `T_LEAD` or `T_TRAIL` lowers the bound, since its row counts it. -/
theorem padPair_movesLeft {f : Frame} {closing : Frame → State → State} {s t : State}
    (hf : s.engine.fsm = .tLead ∨ s.engine.fsm = .tTrail) (hc : s.engine.cnt ≠ 0#4)
    (hclose : ∀ r u, (closing r u).engine = { u.engine with cnt := u.engine.cnt - 1#4 })
    (h : pairMove f id closing s = some t) : movesLeft t < movesLeft s := by
  refine pairMove_movesLeft (fun hh rx u he _ => ?_) (fun hh r u he _ => ?_) h
  · rcases hf with hf | hf <;> simp [movesLeft, pairMoves_data_lt, he, hf, hh]
  · rcases hf with hf | hf <;> simpa [movesLeft, hclose, he, hf, hh] using pairMoves_pred_lt hc

/-- R94: outside the rows of DETECT every move lowers the bound, whatever the parameters. -/
theorem transactStep_movesLeft {s t : State} (ho : s.engine.fsm.op ≠ some .detect) (h : engineStep s = some t) :
    movesLeft t < movesLeft s := by
  have hbounds (k : Nat) := pairMoves_bounds k s.engine.half
  have hdetect {q : Fsm} (hf : s.engine.fsm = q) (hq : q.op = some .detect) : movesLeft t < movesLeft s :=
    absurd (hf ▸ hq) ho
  rcases engineStep_eq_some h with ⟨hf, rfl⟩ | ⟨hf, hp⟩ | ⟨hf, -, rfl⟩ | ⟨hf, hc, hp⟩ | ⟨hf, rfl⟩ | ⟨hf, -, rfl⟩ |
    ⟨hf, hc, hp⟩ | ⟨hf, rfl⟩ | ⟨hf, -⟩ | ⟨hf, -⟩ | ⟨hf, -⟩ | ⟨hf, -⟩ | ⟨_, hf, -⟩
  · have := hbounds 0
    simp only [movesLeft, hf, goto_engine, csLow_engine]
    omega
  · exact pairMove_movesLeft (fun hh rx u he _ => by simp [movesLeft, pairMoves_data_lt, he, hf, hh])
      (fun hh r u he _ => by simp [movesLeft, closeAddr, pairMoves, he, hf, hh]) hp
  · have := hbounds s.engine.cnt.toNat
    simp only [movesLeft, hf, goto_engine]
    omega
  · exact padPair_movesLeft (.inl hf) hc (fun _ _ => rfl) hp
  · have := hbounds (trailingCycles s.engine.posQ s.engine.totQ).toNat
    simp only [movesLeft, hf, toggle, goto_engine, setCnt_engine, csLow_engine, csHigh_engine]
    omega
  · have := hbounds s.engine.cnt.toNat
    simp only [movesLeft, hf, goto_engine]
    omega
  · exact padPair_movesLeft (.inr hf) hc (fun _ _ => rfl) hp
  · simp [movesLeft, hf, endTransact]
  all_goals exact hdetect hf rfl

theorem runTurns_of_transactMoves {k : Nat} {s t : State} (hu : s.undisturbed) (ho : s.engine.fsm.op ≠ some .detect)
    (hk : movesLeft s ≤ k) (h : Moves s t) (ht : t.status.busy = false) : runTurns k s = t := by
  induction h using Relation.ReflTransGen.head_induction_on generalizing k with
  | refl => exact runTurns_of_turn_none (turn_of_not_busy ht) k
  | @head s u hsu _ ih =>
    obtain ⟨hb, hm⟩ := hsu
    have hlt := transactStep_movesLeft ho hm
    obtain ⟨k, rfl⟩ : ∃ j, k = j + 1 := ⟨k - 1, by omega⟩
    rw [runTurns_succ ((turn_of_undisturbed hb hu).trans hm)]
    exact ih (by rw [State.undisturbed, (engineStep_moveFrame hm).port]; exact hu)
      ((engineStep_calibrationFrame ho hm).no_detect ho) (by omega)

/-! ### The engine's moves beside the procedure of TRANSACT -/

/-- R87: the row `T_ADDR` sends the addressed frame. -/
theorem moves_of_address {e : Engine} {r : Frame} {s u : State} (hf : e.fsm = .tAddr) (hh : e.half = .cmd)
    (h : xferPair (e.cmdQ, e.datQ) s = some (r, u)) :
    Moves (running e s)
      (running { e with fsm := .tLead, half := .cmd, cnt := leadingPads e.posQ, rxHold := r.1 } (capture r u)) :=
  moves_of_xferPair (e' := e) (opening := id) (closing := closeAddr) rfl hh (by simp [engineStep, hf])
    (fun t _ => by simp [engineStep, hf]) h

/-- R88: the row `T_LEAD` sends the leading pads of the procedure and is left. -/
theorem moves_of_repeatDiscard {k : Nat} {e : Engine} {s u : State} (hf : e.fsm = .tLead) (hh : e.half = .cmd)
    (hk : e.cnt.toNat = k) (h : repeatDiscard (nopFrame s.params) k s = some u) :
    ∃ rx, Moves (running e s) (running { e with fsm := .tToggle, half := .cmd, cnt := 0#4, rxHold := rx } u) := by
  induction k generalizing e s with
  | zero =>
    obtain rfl : s = u := by simpa [repeatDiscard] using h
    have hc : e.cnt = 0#4 := BitVec.eq_of_toNat_eq hk
    refine ⟨e.rxHold, .single ⟨rfl, ?_⟩⟩
    simp only [engineStep, running_engine, hf, ← hc, ← hh]
    rfl
  | succ k ih =>
    unfold repeatDiscard at h
    split at h
    · cases h
    · rename_i r t hpair
      have hc : e.cnt ≠ 0#4 := nibble_pos.1 (by omega)
      have hmoves := moves_of_xferPair (e := e) (e' := e) (opening := id) (closing := closeLead) rfl hh
        (by simp [engineStep, hf, hc]) (fun t ht => by simp [engineStep, hf, hc, ht]) hpair
      obtain ⟨rx, hrest⟩ := ih (e := { e with half := .cmd, cnt := e.cnt - 1#4, rxHold := r.1 }) (s := t) hf rfl
        (by bv_omega) (by rwa [(xferPair_moveFrame hpair).params])
      exact ⟨rx, hmoves.trans hrest⟩

/-- R90: the row `T_TRAIL` makes the trailing cycles of the procedure and is left; `rx_hold` is then the command byte of the
last echo, if it was before or there is a cycle. -/
theorem moves_of_repeatCapture {k : Nat} {e : Engine} {s u : State} (hf : e.fsm = .tTrail) (hh : e.half = .cmd)
    (hk : e.cnt.toNat = k) (hrx : k = 0 → e.rxHold = s.echo.cmd) (h : repeatCapture (nopFrame s.params) k s = some u) :
    Moves (running e s) (running { e with fsm := .tEnd, half := .cmd, cnt := 0#4, rxHold := u.echo.cmd } u) := by
  induction k generalizing e s with
  | zero =>
    obtain rfl : s = u := by simpa [repeatCapture] using h
    have hc : e.cnt = 0#4 := BitVec.eq_of_toNat_eq hk
    refine .single ⟨rfl, ?_⟩
    simp only [engineStep, running_engine, hf, ← hc, ← hh, ← hrx rfl]
    rfl
  | succ k ih =>
    unfold repeatCapture at h
    split at h
    · cases h
    · rename_i r t hpair
      have hc : e.cnt ≠ 0#4 := nibble_pos.1 (by omega)
      have hmoves := moves_of_xferPair (e := e) (e' := e) (opening := id) (closing := closeTrail) rfl hh
        (by simp [engineStep, hf, hc]) (fun t ht => by simp [engineStep, hf, hc, ht]) hpair
      have hrest := ih (e := { e with half := .cmd, cnt := e.cnt - 1#4, rxHold := r.1 }) (s := capture r t) hf rfl
        (by bv_omega) (fun _ => rfl) (by rwa [capture_params, (xferPair_moveFrame hpair).params])
      exact hmoves.trans hrest

theorem repeatDiscard_params {f : Frame} {k : Nat} {s u : State} (h : repeatDiscard f k s = some u) : u.params = s.params := by
  induction k generalizing s with
  | zero => rw [← Option.some.inj h]
  | succ k ih =>
    unfold repeatDiscard at h
    split at h
    · cases h
    · rename_i r t hpair
      exact (ih h).trans (xferPair_moveFrame hpair).params

/-- The parts of the procedure of R93. -/
theorem transactProcedure_eq_some {p n : Nibble} {c d : Byte} {s t : State} (h : transactProcedure p n c d s = some t) :
    ∃ r t₁ u v, xferPair (c, d) (csLow s) = some (r, t₁) ∧
      repeatDiscard (nopFrame s.params) (p.toNat - 1) (capture r t₁) = some u ∧
      repeatCapture (nopFrame s.params) (n.toNat - p.toNat + 1) (csLow (csHigh u)) = some v ∧
      t = verifyEcho (c, d) (csHigh v) := by
  unfold transactProcedure at h
  split at h
  · cases h
  · rename_i r t₁ hpair
    split at h
    · cases h
    · rename_i u hlead
      split at h
      · cases h
      · rename_i v htrail
        exact ⟨r, t₁, u, v, hpair, hlead, htrail, (Option.some.inj h).symm⟩

/-- R93, R94: an operation of TRANSACT that nothing disturbs ends as its procedure does, in all but the internal registers. -/
theorem transactBody_of_procedure {p n : Nibble} {c d : Byte} {s t : State} (hu : s.undisturbed) (hp : 1 ≤ p.toNat)
    (hn : p.toNat ≤ n.toNat) (h : transactProcedure p n c d s = some t) :
    transactBody p n c d s = { t with
      engine := { fsm := .idle, half := .cmd, opQ := .transact, posQ := p, totQ := n, cmdQ := c, datQ := d, cnt := 0#4,
                  rxHold := t.echo.cmd } } := by
  have ha : badArgs p n = false := badArgs_eq_false.2 ⟨hp, hn⟩
  obtain ⟨r, t₁, u, v, haddr, hlead, htrail, rfl⟩ := transactProcedure_eq_some h
  have hparams₁ : t₁.params = s.params := (xferPair_moveFrame haddr).params
  have hparams : u.params = s.params := (repeatDiscard_params hlead).trans hparams₁
  have hstart : Moves (setBusy (latchTransact p n c d s))
      (running { (latchTransact p n c d s).engine with fsm := .tAddr } (csLow s)) := .single ⟨rfl, rfl⟩
  obtain ⟨rx, hpads⟩ := moves_of_repeatDiscard
    (e := { (latchTransact p n c d s).engine with fsm := .tLead, cnt := leadingPads p, rxHold := r.1 })
    rfl rfl (leadingPads_toNat hp) (by rwa [capture_params, hparams₁])
  have htoggle := ((hstart.trans (moves_of_address rfl rfl haddr)).trans hpads).tail ⟨rfl, rfl⟩
  have hcycles := moves_of_repeatCapture
    (e := { (latchTransact p n c d s).engine with fsm := .tTrail, cnt := trailingCycles p n, rxHold := rx })
    (s := csLow (csHigh u)) rfl rfl (trailingCycles_toNat hp hn) nofun (by rwa [csLow_params, csHigh_params, hparams])
  have hend := (htoggle.trans hcycles).tail ⟨rfl, rfl⟩
  rw [transactBody, ha]
  exact runTurns_of_transactMoves hu nofun (movesLeft_beginTransact ha c d s |>.trans (Nat.le_add_left _ _)) hend rfl

/-- Settles O24: row by row the engine makes the procedure's exchanges. -/
theorem transactFollowsItsProcedure : Obligations.TransactFollowsItsProcedure := by
  intro s t p n c d hready hu hp hn h
  rw [exec_of_ready hready, instrBody, transactBody_of_procedure (s := accept s) hu hp hn h]

/-! ### DETECT beside its procedure -/

/-- A scan that ends without a match has made every cycle it was allowed (R110). -/
theorem scan_exhausts {left k k' : Nat} {s u : State} (h : scan left k s = some (false, k', u)) : k' = k + left := by
  induction left generalizing k s with
  | zero =>
    obtain ⟨rfl, -⟩ : k = k' ∧ s = u := by simpa [scan] using h
    rfl
  | succ left ih =>
    unfold scan at h
    split at h
    · cases h
    · split at h
      · cases h
      · rw [ih h]
        omega

/-- The parts of the procedure of R113. -/
theorem detectProcedure_eq_some {e : Nibble} {s t : State} (h : detectProcedure e s = some t) :
    ∃ r t₁ found k u, xferPair (sentinelFrame s.params) (csLow s) = some (r, t₁) ∧
      scan s.params.calMax 0 t₁ = some (found, k, u) ∧ t = reportCount found (BitVec.ofNat 4 k) e (csHigh u) := by
  unfold detectProcedure at h
  split at h
  · cases h
  · rename_i r t₁ hpair
    split at h
    · cases h
    · rename_i found k u hscan
      exact ⟨r, t₁, found, k, u, hpair, hscan, (Option.some.inj h).symm⟩

/-- R111, R112: all that the report of a scan writes. -/
theorem reportCount_eq (found : Bool) (k e : Nibble) (s : State) : reportCount found k e s = { s with
    cal := { detected := if found then k else 0#4, expected := e }
    status := Status.finish (if found then (if k = e then .ok else .lengthMismatch) else .notFound)
      { s.status with calOk := found && decide (k = e) } } := by
  cases found with
  | false => rfl
  | true => rw [reportCount_true]; rfl

/-- Settles O31: row by row the engine makes the procedure's exchanges; its counter is the count found, or the bound. -/
theorem detectFollowsItsProcedure : Obligations.DetectFollowsItsProcedure := by
  intro s t e hready hu hlegal h
  obtain ⟨r, t₁, found, k, u, hsent, hscan, rfl⟩ := detectProcedure_eq_some h
  rw [exec_of_ready hready, instrBody, detectBody_of_procedure (s := accept s) hu hlegal hsent hscan, reportCount_eq]
  cases found with
  | false =>
    obtain rfl : k = s.params.calMax := by simpa using scan_exhausts hscan
    rfl
  | true =>
    have hfound : (if BitVec.ofNat 4 k = e then Kind.ok else .lengthMismatch) ≠ .notFound := by split <;> simp
    simp [Status.finish, hfound]

/-! ### What a procedure does when its exchanges complete -/

/-- From `s` to `t` these bus events were added, and nothing of the framer but `ECHO`, `cs_n` and the engine was touched, nor
the port. -/
structure BusRun (s t : State) (new : List BusEvent) : Prop where
  trace : t.trace = s.trace ++ new
  params : t.params = s.params
  status : t.status = s.status
  cal : t.cal = s.cal
  setup : t.shift.setup = s.shift.setup
  port : t.port = s.port
  reads : t.reads = s.reads

theorem BusRun.trans {s t u : State} {new new' : List BusEvent} (h : BusRun s t new) (k : BusRun t u new') :
    BusRun s u (new ++ new') where
  trace := by rw [k.trace, h.trace, List.append_assoc]
  params := k.params.trans h.params
  status := k.status.trans h.status
  cal := k.cal.trans h.cal
  setup := k.setup.trans h.setup
  port := k.port.trans h.port
  reads := k.reads.trans h.reads

theorem BusRun.refl (s : State) : BusRun s s [] := ⟨(List.append_nil _).symm, rfl, rfl, rfl, rfl, rfl, rfl⟩

theorem csLow_busRun (s : State) : BusRun s (csLow s) [.csLow] := ⟨rfl, rfl, rfl, rfl, rfl, rfl, rfl⟩

theorem csHigh_busRun (s : State) : BusRun s (csHigh s) [.csHigh] := ⟨rfl, rfl, rfl, rfl, rfl, rfl, rfl⟩

theorem capture_busRun {s t : State} {new : List BusEvent} (h : BusRun s t new) (f : Frame) : BusRun s (capture f t) new :=
  { h with }

theorem xfer_busRun {tx rx : Byte} {s t : State} (h : xfer tx s = some (rx, t)) : BusRun s t [.xfer tx rx] := by
  obtain ⟨hparams, hstatus, -, hcal, -, -, hsetup, hport, hreads, -, htrace⟩ := xfer_frame h
  exact ⟨htrace, hparams, hstatus, hcal, hsetup, hport, hreads⟩

/-- R13: of the exchanges that complete, a pair is made. -/
theorem xferPair_of_completes {k : Nat} {s : State} (h : s.completesAtLeast (k + 2)) (f : Frame) :
    ∃ r t, xferPair f s = some (r, t) ∧ BusRun s t (pairEvents f r) ∧ t.completesAtLeast k := by
  obtain ⟨t, ht, -, htc⟩ := xfer_of_completes h f.1
  obtain ⟨u, hu, -, huc⟩ := xfer_of_completes htc f.2
  exact ⟨(_, _), u, by rw [xferPair, ht]; simp only [hu], (xfer_busRun ht).trans (xfer_busRun hu), huc⟩

theorem repeatDiscard_of_completes {k c : Nat} {s : State} (h : s.completesAtLeast (c + 2 * k)) (f : Frame) :
    ∃ (rs : List Frame) (t : State), repeatDiscard f k s = some t ∧ rs.length = k ∧ BusRun s t (rs.flatMap (pairEvents f)) ∧
      t.completesAtLeast c := by
  induction k generalizing s with
  | zero => exact ⟨[], s, rfl, rfl, .refl s, h⟩
  | succ k ih =>
    obtain ⟨r, t, hpair, hrun, hc⟩ := xferPair_of_completes (k := c + 2 * k) h f
    obtain ⟨rs, u, hrest, hlen, hrun', hc'⟩ := ih hc
    exact ⟨r :: rs, u, by rw [repeatDiscard, hpair]; exact hrest, by rw [List.length_cons, hlen], hrun.trans hrun', hc'⟩

/-- R90: of `k + 1` pairs captured the last is left in `ECHO`. -/
theorem repeatCapture_of_completes {k : Nat} {s : State} (h : s.completesAtLeast (2 * (k + 1))) (f : Frame) :
    ∃ (rs : List Frame) (last : Frame) (t : State), repeatCapture f (k + 1) s = some t ∧ rs.length = k ∧
      BusRun s t ((rs ++ [last]).flatMap (pairEvents f)) ∧ t.echo = { cmd := last.1, data := last.2 } := by
  induction k generalizing s with
  | zero =>
    obtain ⟨r, t, hpair, hrun, -⟩ := xferPair_of_completes (k := 0) h f
    refine ⟨[], r, capture r t, by rw [repeatCapture, hpair]; rfl, rfl, ?_, rfl⟩
    simpa using capture_busRun hrun r
  | succ k ih =>
    obtain ⟨r, t, hpair, hrun, hc⟩ := xferPair_of_completes (k := 2 * (k + 1)) h f
    obtain ⟨rs, last, u, hrest, hlen, hrun', hecho⟩ := ih (s := capture r t) hc
    exact ⟨r :: rs, last, u, by rw [repeatCapture, hpair]; exact hrest, by rw [List.length_cons, hlen],
      (capture_busRun hrun r).trans hrun', hecho⟩

/-- R86 to R93: with `2N + 2` exchanges completing, the procedure of TRANSACT makes its trace and verifies the last echo. -/
theorem transactProcedure_of_completes {p n : Nibble} (c d : Byte) {s : State} (hp : 1 ≤ p.toNat) (hn : p.toNat ≤ n.toNat)
    (h : s.completesAtLeast (2 * n.toNat + 2)) :
    ∃ (r : Frame) (leads cycles : List Frame) (last : Frame) (v : State),
      transactProcedure p n c d s = some (verifyEcho (c, d) (csHigh v)) ∧
      leads.length = p.toNat - 1 ∧ cycles.length = n.toNat - p.toNat ∧
      BusRun s (csHigh v) (transactTrace s.params c d r leads (cycles ++ [last])) ∧
      v.echo = { cmd := last.1, data := last.2 } := by
  obtain ⟨k, hk⟩ : ∃ k, n.toNat - p.toNat = k := ⟨_, rfl⟩
  rw [show 2 * n.toNat + 2 = 2 * (k + 1) + 2 * (p.toNat - 1) + 2 by omega] at h
  obtain ⟨r, t, haddr, hrun, hc⟩ := xferPair_of_completes (s := csLow s) h (c, d)
  obtain ⟨leads, u, hlead, hleads, hrun', hc'⟩ := repeatDiscard_of_completes (s := capture r t) hc (nopFrame s.params)
  obtain ⟨cycles, last, v, htrail, hcycles, hrun'', hecho⟩ :=
    repeatCapture_of_completes (s := csLow (csHigh u)) hc' (nopFrame s.params)
  have htoggle : BusRun u (csLow (csHigh u)) [.csHigh, .csLow] := (csHigh_busRun u).trans (csLow_busRun _)
  refine ⟨r, leads, cycles, last, v, ?_, hleads, hcycles.trans hk.symm, ?_, hecho⟩
  · rw [transactProcedure, haddr]
    simp only [hlead, hk, htrail]
  · exact (((((csLow_busRun s).trans (capture_busRun hrun r)).trans hrun').trans htoggle).trans hrun'').trans (csHigh_busRun v)

/-- Settles O25: the engine follows the procedure, whose exchanges complete. -/
theorem transactCompletes : Obligations.TransactCompletes := by
  intro s p n c d hready hu hp hn hc
  obtain ⟨r, leads, cycles, last, v, hproc, hleads, hcycles, hrun, hecho⟩ :=
    transactProcedure_of_completes (s := accept s) c d hp hn hc
  have hlast : (v.echo.cmd, v.echo.data) = last := by rw [hecho]
  refine ⟨_, r, last, leads, cycles ++ [last], transactFollowsItsProcedure s _ p n c d hready hu hp hn hproc, hleads,
    by simp [hcycles], List.getLast?_concat, hrun.trace, hecho, ?_, rfl, rfl, hrun.cal, hrun.params, hrun.port, hrun.reads,
    hrun.setup⟩
  have hstatus : v.status = s.status.accept := hrun.status
  by_cases h : last = (c, d) <;> simp [verifyEcho, hlast, hstatus, h, Status.finish, Status.accept]

/-- R109, R110: a scan with a cycle to make, whose exchanges complete, captures pairs up to the first sentinel or to its bound;
the last of them is left in `ECHO`. -/
theorem scan_of_completes {left k : Nat} {s : State} (h : s.completesAtLeast (2 * (left + 1))) :
    ∃ (rs : List Frame) (last : Frame) (t : State),
      scan (left + 1) k s = some (decide (last = sentinelFrame s.params), k + (rs.length + 1), t) ∧
      rs.length ≤ left ∧ (∀ f ∈ rs, f ≠ sentinelFrame s.params) ∧ (last ≠ sentinelFrame s.params → rs.length = left) ∧
      BusRun s t ((rs ++ [last]).flatMap (pairEvents (nopFrame s.params))) ∧
      t.echo = { cmd := last.1, data := last.2 } := by
  induction left generalizing k s with
  | zero =>
    obtain ⟨r, t, hpair, hrun, -⟩ := xferPair_of_completes (k := 0) h (nopFrame s.params)
    refine ⟨[], r, capture r t, ?_, le_rfl, nofun, fun _ => rfl, by simpa using capture_busRun hrun r, rfl⟩
    rw [scan, hpair]
    by_cases hr : r = sentinelFrame s.params <;> simp [hr, scan]
  | succ left ih =>
    obtain ⟨r, t, hpair, hrun, hc⟩ := xferPair_of_completes (k := 2 * (left + 1)) h (nopFrame s.params)
    by_cases hr : r = sentinelFrame s.params
    · refine ⟨[], r, capture r t, ?_, Nat.zero_le _, nofun, absurd hr, by simpa using capture_busRun hrun r, rfl⟩
      rw [scan, hpair]
      simp [hr]
    · obtain ⟨rs, last, u, hscan, hlen, hno, hbound, hrun', hecho⟩ := ih (k := k + 1) (s := capture r t) hc
      rw [capture_params, hrun.params] at hscan hno hbound hrun'
      refine ⟨r :: rs, last, u, ?_, Nat.succ_le_succ hlen, List.forall_mem_cons.2 ⟨hr, hno⟩,
        fun hl => congrArg (· + 1) (hbound hl), (capture_busRun hrun r).trans hrun', hecho⟩
      rw [scan, hpair]
      simp only [if_neg hr, hscan, List.length_cons]
      congr 3
      omega

/-- R107 to R113: with `2 * CAL_MAX + 2` exchanges completing, the procedure of DETECT makes its trace and reports its scan. -/
theorem detectProcedure_of_completes (e : Nibble) {s : State} (hlegal : s.params.legal = true)
    (h : s.completesAtLeast (2 * s.params.calMax + 2)) :
    ∃ (r : Frame) (rs : List Frame) (last : Frame) (v : State), detectProcedure e s =
        some (reportCount (decide (last = sentinelFrame s.params)) (BitVec.ofNat 4 (rs.length + 1)) e (csHigh v)) ∧
      rs.length + 1 ≤ s.params.calMax ∧ (∀ f ∈ rs, f ≠ sentinelFrame s.params) ∧
      (last ≠ sentinelFrame s.params → rs.length + 1 = s.params.calMax) ∧
      BusRun s (csHigh v) (detectTrace s.params r (rs ++ [last])) ∧ v.echo = { cmd := last.1, data := last.2 } := by
  obtain ⟨left, hleft⟩ : ∃ left, s.params.calMax = left + 1 := Nat.exists_eq_add_one.2 (Params.legal_calMax hlegal).1
  rw [hleft] at h
  obtain ⟨r, t, hsent, hrun, hc⟩ := xferPair_of_completes (s := csLow s) h (sentinelFrame s.params)
  have hstart := (csLow_busRun s).trans hrun
  obtain ⟨rs, last, v, hscan, hlen, hno, hbound, hrun', hecho⟩ := scan_of_completes (k := 0) hc
  rw [hstart.params] at hscan hno hbound hrun'
  refine ⟨r, rs, last, v, ?_, by omega, hno, fun hl => by rw [hbound hl, hleft],
    (hstart.trans hrun').trans (csHigh_busRun v), hecho⟩
  rw [detectProcedure, hsent, hleft]
  simp only [hscan, Nat.zero_add]

/-- Settles O32: the engine follows the procedure, whose exchanges complete. -/
theorem detectCompletes : Obligations.DetectCompletes := by
  intro s e hready hu hlegal hc
  obtain ⟨r, rs, last, v, hproc, hlen, hno, hbound, hrun, hecho⟩ := detectProcedure_of_completes (s := accept s) e hlegal hc
  have hmax : s.params.calMax ≤ 15 := (Params.legal_calMax hlegal).2
  have hlen' : rs.length + 1 ≤ s.params.calMax := hlen
  have hcount : (BitVec.ofNat 4 (rs.length + 1)).toNat = rs.length + 1 := by rw [BitVec.toNat_ofNat]; omega
  have heq : BitVec.ofNat 4 (rs.length + 1) = e ↔ rs.length + 1 = e.toNat := by rw [← BitVec.toNat_inj, hcount]
  have hstatus : v.status = s.status.accept := hrun.status
  have hexec := detectFollowsItsProcedure s _ e hready hu hlegal hproc
  rw [reportCount_eq] at hexec
  refine ⟨_, r, last, rs ++ [last], hexec, by simp, by simpa using hlen', List.getLast?_concat, by simpa using hno,
    by simpa using hbound, hrun.trace, hecho, rfl, ?_, ?_, rfl, rfl, hrun.params, hrun.port, hrun.reads, hrun.setup⟩
  · by_cases h : last = sentinelFrame s.params <;> simp [h, hcount]
  · by_cases h : last = sentinelFrame s.params <;> by_cases he : rs.length + 1 = e.toNat <;>
      simp [h, he, heq, hstatus, Status.finish, Status.accept]

end Sys2Proof.Machine

/-! Proofs of O22, O26, O28, O29 and O30 (family `40_transact`): TRANSACT with bad arguments, the events it makes, and what it
does on a reference chain, seen as a line of frames of which the chain holds the first. -/

namespace Sys2Proof.Machine

/-! ### The line of frames

A reference chain holds as many frames as it has boards. The frames sent, the last one first, and behind them the frames that
stood in the stages at the start are a line of which the stages are the beginning; the frame next to the stages is the last
one received. -/

/-- R52: a chain has a stage for each board. -/
theorem Chain.stages_length {ch : Chain} (h : ch.wf) : ch.stages.length = ch.depth := stagesOf_length h.2.1

/-- The line once `f` and then `j` no-op pairs are sent into a chain with these stages. -/
def line (P : Params) (f : Frame) (j : Nat) (stages : List Frame) : List Frame := List.replicate j (nopFrame P) ++ f :: stages

theorem line_getElem?_lt {P : Params} {f : Frame} {j k : Nat} {stages : List Frame} (h : k < j) :
    (line P f j stages)[k]? = some (nopFrame P) := by
  simp [line, List.getElem?_append, h]

theorem line_getElem?_self (P : Params) (f : Frame) (j : Nat) (stages : List Frame) : (line P f j stages)[j]? = some f := by
  simp [line]

theorem line_getElem?_start (P : Params) (f : Frame) (j i : Nat) (stages : List Frame) :
    (line P f j stages)[j + (i + 1)]? = stages[i]? := by
  simp [line, List.getElem?_append_right]

/-- What stands at a place of the line: a no-op pair, the frame, or a frame of the start. -/
theorem line_getElem?_eq_some {P : Params} {f g : Frame} {j k : Nat} {stages : List Frame}
    (h : (line P f j stages)[k]? = some g) :
    g = nopFrame P ∨ (k = j ∧ g = f) ∨ ∃ i, k = j + (i + 1) ∧ stages[i]? = some g := by
  rcases Nat.lt_trichotomy k j with hk | rfl | hk
  · rw [line_getElem?_lt hk] at h
    exact .inl (Option.some.inj h).symm
  · rw [line_getElem?_self] at h
    exact .inr (.inl ⟨rfl, (Option.some.inj h).symm⟩)
  · obtain ⟨i, rfl⟩ : ∃ i, k = j + (i + 1) := ⟨k - j - 1, by omega⟩
    exact .inr (.inr ⟨i, rfl, (line_getElem?_start P f j i stages).symm.trans h⟩)

theorem line_take_of_le {P : Params} {f : Frame} {j k : Nat} {stages : List Frame} (h : k ≤ j) :
    (line P f j stages).take k = List.replicate k (nopFrame P) := by
  rw [line, List.take_append_of_le_length (by simpa using h), List.take_replicate, Nat.min_eq_left h]

/-- The environment is a reference chain of `depth` boards whose stages are the beginning of this line, with these output
registers; at least `k` more exchanges complete, and `cs_n` is low. -/
structure State.OnLine (s : State) (depth : Nat) (frames : List Frame) (out : Memory) (k : Nat) : Prop where
  chain : s.OnChain (frames.take depth) out k
  depth_le : depth ≤ frames.length
  low : s.csN = .low

/-- Capturing a pair touches neither the chain nor the bus. -/
theorem State.OnLine.capture {depth k : Nat} {frames : List Frame} {out : Memory} {s : State} (h : s.OnLine depth frames out k)
    (r : Frame) : (Machine.capture r s).OnLine depth frames out k :=
  ⟨⟨h.chain.env, h.chain.completes⟩, h.depth_le, h.low⟩

/-- R54: the frame sent is the new head of the line, and the pair received stands next to the stages. -/
theorem xferPair_onLine {depth k : Nat} {frames : List Frame} {out : Memory} {s : State}
    (h : s.OnLine depth frames out (k + 2)) (f : Frame) :
    ∃ r t, xferPair f s = some (r, t) ∧ (f :: frames)[depth]? = some r ∧ t.OnLine depth (f :: frames) out k := by
  have hlen : depth < (f :: frames).length := Nat.lt_succ_of_le h.depth_le
  have hshift : f :: frames.take depth = (f :: frames).take depth ++ [(f :: frames)[depth]] := by
    rw [← List.take_succ_cons, List.take_succ_eq_append_getElem hlen]
  obtain ⟨t, hpair, hchain, -, hcs⟩ := xferPair_onChain h.chain hshift
  exact ⟨_, t, hpair, List.getElem?_eq_getElem hlen, hchain, hlen.le, hcs.trans h.low⟩

/-- R88: the pads sent are the new beginning of the line. -/
theorem repeatDiscard_onLine {depth k c : Nat} {frames : List Frame} {out : Memory} {s : State}
    (h : s.OnLine depth frames out (c + 2 * k)) (f : Frame) :
    ∃ t, repeatDiscard f k s = some t ∧ t.OnLine depth (List.replicate k f ++ frames) out c := by
  induction k generalizing s frames with
  | zero => exact ⟨s, rfl, h⟩
  | succ k ih =>
    obtain ⟨r, t, hpair, -, ht⟩ := xferPair_onLine (k := c + 2 * k) h f
    obtain ⟨u, hrest, hu⟩ := ih ht
    refine ⟨u, by rw [repeatDiscard, hpair]; exact hrest, ?_⟩
    rwa [List.replicate_succ', List.append_assoc]

/-- R90: of `k + 1` trailing cycles the last leaves in `ECHO` the frame next to the stages. -/
theorem repeatCapture_onLine {depth k c : Nat} {frames : List Frame} {out : Memory} {s : State}
    (h : s.OnLine depth frames out (c + 2 * (k + 1))) (f : Frame) :
    ∃ last t, repeatCapture f (k + 1) s = some t ∧ (List.replicate (k + 1) f ++ frames)[depth]? = some last ∧
      t.OnLine depth (List.replicate (k + 1) f ++ frames) out c ∧ t.echo = { cmd := last.1, data := last.2 } := by
  induction k generalizing s frames with
  | zero =>
    obtain ⟨r, t, hpair, hr, ht⟩ := xferPair_onLine h f
    exact ⟨r, Machine.capture r t, by rw [repeatCapture, hpair]; rfl, hr, ht.capture r, rfl⟩
  | succ k ih =>
    obtain ⟨r, t, hpair, -, ht⟩ := xferPair_onLine (k := c + 2 * (k + 1)) h f
    obtain ⟨last, u, hrest, hlast, hu, hecho⟩ := ih (ht.capture r)
    rw [List.replicate_succ', List.append_assoc]
    exact ⟨last, u, by rw [repeatCapture, hpair]; exact hrest, hlast, hu, hecho⟩

/-- R55: at the rising edge every board latches its stage, the beginning of the line. -/
theorem csHigh_onLine {depth k : Nat} {frames : List Frame} {out : Memory} {s : State} (h : s.OnLine depth frames out k) :
    (csHigh s).OnChain (frames.take depth) (latchFrom 1 (frames.take depth) out) k := by
  obtain ⟨⟨⟨ch, henv, hwf, hstages, rfl⟩, hc⟩, -, hlow⟩ := h
  refine ⟨⟨ch.latch, by rw [csHigh_env, if_pos hlow, henv]; rfl, Chain.latch_wf hwf, hstages, ?_⟩, hc⟩
  rw [← hstages]
  rfl

/-- R56: a falling edge changes nothing in the chain. -/
theorem csLow_onLine {depth k : Nat} {frames : List Frame} {out : Memory} {s : State} (h : s.OnChain (frames.take depth) out k)
    (hlen : depth ≤ frames.length) : (csLow s).OnLine depth frames out k :=
  ⟨⟨h.env, h.completes⟩, hlen, rfl⟩

/-! ### TRANSACT on a reference chain -/

/-- The output registers after a TRANSACT of `f` to board `p` of `n`: the two rising edges latch the line with `p - 1` and
with `n` no-op pairs behind the frame. -/
def transactOut (P : Params) (p n : Nat) (f : Frame) (stages : List Frame) (out : Memory) : Memory :=
  latchFrom 1 ((line P f n stages).take stages.length) (latchFrom 1 ((line P f (p - 1) stages).take stages.length) out)

/-- R86 to R93 on a reference chain: the procedure of TRANSACT leaves the line with `N` no-op pairs behind the frame, and
verifies the frame next to the stages. -/
theorem transactProcedure_onChain {stages : List Frame} {out : Memory} {p n : Nibble} (c d : Byte) {s : State}
    (hp : 1 ≤ p.toNat) (hn : p.toNat ≤ n.toNat) (h : s.OnChain stages out (2 * n.toNat + 2)) :
    ∃ last v, transactProcedure p n c d s = some (verifyEcho (c, d) v) ∧
      (line s.params (c, d) n.toNat stages)[stages.length]? = some last ∧
      v.OnChain ((line s.params (c, d) n.toNat stages).take stages.length)
        (transactOut s.params p.toNat n.toNat (c, d) stages out) 0 ∧
      v.echo = { cmd := last.1, data := last.2 } := by
  obtain ⟨k, hk⟩ : ∃ k, n.toNat - p.toNat = k := ⟨_, rfl⟩
  rw [show 2 * n.toNat + 2 = 0 + 2 * (k + 1) + 2 * (p.toNat - 1) + 2 by omega] at h
  rw [← List.take_length (l := stages)] at h
  obtain ⟨r, t, haddr, -, ht⟩ := xferPair_onLine (csLow_onLine h le_rfl) (c, d)
  obtain ⟨u, hlead, hu⟩ := repeatDiscard_onLine (ht.capture r) (nopFrame s.params)
  obtain ⟨last, v, htrail, hlast, hv, hecho⟩ :=
    repeatCapture_onLine (csLow_onLine (csHigh_onLine hu) hu.depth_le) (nopFrame s.params)
  have hline : List.replicate (k + 1) (nopFrame s.params) ++
      (List.replicate (p.toNat - 1) (nopFrame s.params) ++ (c, d) :: stages) = line s.params (c, d) n.toNat stages := by
    rw [line, ← List.append_assoc, List.replicate_append_replicate, show k + 1 + (p.toNat - 1) = n.toNat by omega]
  rw [hline] at hlast hv
  refine ⟨last, csHigh v, ?_, hlast, csHigh_onLine hv, hecho⟩
  rw [transactProcedure, haddr]
  simp only [hlead, hk, htrail]

/-- R86 to R94 on a reference chain: TRANSACT leaves the chain and its output registers as its procedure does, and reports
whether the frame next to the stages is the frame sent. -/
theorem exec_transact_onChain {ch : Chain} {p n : Nibble} (c d : Byte) {s : State} (hready : s.ready) (hu : s.undisturbed)
    (henv : s.env = .reference ch) (hwf : ch.wf) (hp : 1 ≤ p.toNat) (hn : p.toNat ≤ n.toNat)
    (hc : s.completesAtLeast (2 * n.toNat + 2)) :
    ∃ (t : State) (ch' : Chain) (last : Frame), exec (.transact p n c d) s = .next t ∧ t.env = .reference ch' ∧
      (line s.params (c, d) n.toNat ch.stages)[ch.depth]? = some last ∧
      t.status.kind = (if last = (c, d) then .ok else .echoMismatch) ∧ t.status.pass = decide (last = (c, d)) ∧
      t.echo = { cmd := last.1, data := last.2 } ∧ ch'.depth = ch.depth ∧ ch'.wf ∧
      ch'.stages = (line s.params (c, d) n.toNat ch.stages).take ch.depth ∧
      ch'.out = transactOut s.params p.toNat n.toNat (c, d) ch.stages ch.out := by
  have hlen : ch.stages.length = ch.depth := Chain.stages_length hwf
  obtain ⟨last, v, hproc, hlast, ⟨⟨ch', henv', hwf', hstages, hout⟩, -⟩, hecho⟩ :=
    transactProcedure_onChain (s := accept s) c d hp hn ⟨⟨ch, henv, hwf, rfl, rfl⟩, hc⟩
  have hverified : (v.echo.cmd, v.echo.data) = last := by rw [hecho]
  have hdepth : ch'.depth = ch.depth := by
    rw [← Chain.stages_length hwf', hstages, List.length_take_of_le (by simp [line]; omega), hlen]
  rw [hlen] at hlast hstages
  refine ⟨_, ch', last, transactFollowsItsProcedure s _ p n c d hready hu hp hn hproc, henv', hlast, ?_, ?_, hecho, hdepth,
    hwf', hstages, hout⟩
  · simp [verifyEcho, Status.finish, hverified]
  · by_cases h : last = (c, d) <;> simp [verifyEcho, Status.finish, hverified, h]

/-! ### What the boards' registers hold after a TRANSACT -/

/-- R55: a board's register of its stage's frame holds the frame's data byte after the latch. -/
theorem latch_read_stage {stages : List Frame} {b : Nat} {f : Frame} (out : Memory) (hb : 1 ≤ b) (h : stages[b - 1]? = some f) :
    (latchFrom 1 stages out).read (outAddr b f.1) = some f.2 := by
  have := latchFrom_read_latched out 1 (b - 1) stages f h
  rwa [Nat.add_sub_cancel' hb] at this

/-- R55: a register that is not that of its board's stage is left by the latch. -/
theorem latch_read_other {stages : List Frame} {b : Nat} {r : Byte} (out : Memory)
    (h : ∀ f, 1 ≤ b → stages[b - 1]? = some f → r ≠ f.1) :
    (latchFrom 1 stages out).read (outAddr b r) = out.read (outAddr b r) := by
  refine latchFrom_read_other _ _ _ _ fun k f hf heq => ?_
  obtain ⟨rfl, hr⟩ := outAddr_injective heq
  exact h f (Nat.le_add_right 1 k) (by rwa [Nat.add_sub_cancel_left]) hr

/-- A latch leaves every address that is of no board of the chain. -/
theorem latch_read_outside {stages : List Frame} {b : Nat} (out : Memory) (r : Byte) (hb : b = 0 ∨ stages.length < b) :
    (latchFrom 1 stages out).read (outAddr b r) = out.read (outAddr b r) :=
  latch_read_other out fun f h1 hf => by
    have := (List.getElem?_eq_some_iff.1 hf).1
    omega

/-- A latch of the line writes, of the registers other than the no-op register, only that of the frame in board `j + 1` and
those of the start's frames in the boards above it. -/
theorem latch_line_read_other {P : Params} {f : Frame} {j depth b : Nat} {r : Byte} {stages : List Frame} (out : Memory)
    (hr : r ≠ P.nopCmd) (hf : b = j + 1 → b ≤ depth → r ≠ f.1)
    (hs : ∀ i g, b = j + 1 + (i + 1) → stages[i]? = some g → r ≠ g.1) :
    (latchFrom 1 ((line P f j stages).take depth) out).read (outAddr b r) = out.read (outAddr b r) := by
  refine latch_read_other out fun g hb hg => ?_
  rw [List.getElem?_take, Option.ite_none_right_eq_some] at hg
  obtain ⟨hlt, hg⟩ := hg
  rcases line_getElem?_eq_some hg with rfl | ⟨hj, rfl⟩ | ⟨i, hi, hstart⟩
  · exact hr
  · exact hf (by omega) (by omega)
  · exact hs i g (by omega) hstart

theorem latch_line_read_frame {P : Params} {f : Frame} {j depth : Nat} {stages : List Frame} (out : Memory) (h : j < depth) :
    (latchFrom 1 ((line P f j stages).take depth) out).read (outAddr (j + 1) f.1) = some f.2 :=
  latch_read_stage out (Nat.succ_pos j) (by rw [Nat.add_sub_cancel, List.getElem?_take_of_lt h, line_getElem?_self])

theorem latch_line_read_start {P : Params} {f g : Frame} {i j depth : Nat} {stages : List Frame} (out : Memory)
    (hg : stages[i]? = some g) (h : j + (i + 1) < depth) :
    (latchFrom 1 ((line P f j stages).take depth) out).read (outAddr (j + 1 + (i + 1)) g.1) = some g.2 := by
  refine latch_read_stage out (Nat.le_add_left 1 _) ?_
  rw [show j + 1 + (i + 1) - 1 = j + (i + 1) by omega, List.getElem?_take_of_lt h, line_getElem?_start, hg]

/-- R53: the stages of a chain are numbered from 1. -/
theorem Chain.stage_succ (ch : Chain) (i : Nat) : ch.stage (i + 1) = ch.stages[i]? := by simp [Chain.stage]

/-- Settles O28: the second edge latches a no-op pair in every board, the first the line with `p - 1` no-op pairs. -/
theorem transactOnTheRightChain : Obligations.TransactOnTheRightChain := by
  intro s ch p n c d hready hu henv hwf hdepth hp hn hc
  obtain ⟨t, ch', last, hexec, henv', hlast, hkind, hpass, hecho, hdepth', hwf', hstages, hout⟩ :=
    exec_transact_onChain c d hready hu henv hwf hp hn hc
  have hlen : ch.stages.length = ch.depth := Chain.stages_length hwf
  rw [hdepth, line_getElem?_self] at hlast
  obtain rfl : (c, d) = last := Option.some.inj hlast
  rw [line_take_of_le hdepth.le] at hstages
  rw [transactOut, hlen, line_take_of_le hdepth.le] at hout
  obtain ⟨j, hj⟩ : ∃ j, p.toNat = j + 1 := Nat.exists_eq_add_one.2 hp
  rw [hj, Nat.add_sub_cancel] at hout
  have hkeep {b : Nat} {r : Byte} (hr : r ≠ s.params.nopCmd) : ch'.out.read (outAddr b r) =
      (latchFrom 1 ((line s.params (c, d) j ch.stages).take ch.depth) ch.out).read (outAddr b r) := by
    rw [hout, latchFrom_noOp_read _ _ _ _ hr]
  have hnone {b : Nat} (r : Byte) (hb : b = 0 ∨ n.toNat < b) : ch'.out.read (outAddr b r) = ch.out.read (outAddr b r) := by
    have htake := List.length_take_le ch.depth (line s.params (c, d) j ch.stages)
    rw [hout, latch_read_outside _ _ (by rw [List.length_replicate]; omega), latch_read_outside _ _ (by omega)]
  refine ⟨t, ch', hexec, henv', by simpa using hkind, by simpa using hpass, hecho, hdepth', by simp [Chain.flushed, hstages],
    hwf', fun hr => ?_, fun b f hb hbn hf hr => ?_, fun b r hr hframe hstart => ?_, fun r => hnone r (.inl rfl),
    fun b r hb => hnone r (.inr hb)⟩
  · rw [hkeep hr, hj]
    exact latch_line_read_frame (f := (c, d)) ch.out (by omega)
  · obtain ⟨i, rfl⟩ : ∃ i, b = p.toNat + (i + 1) := ⟨b - p.toNat - 1, by omega⟩
    rw [Nat.add_sub_cancel_left, Chain.stage_succ] at hf
    rw [hkeep hr, hj]
    exact latch_line_read_start ch.out hf (by omega)
  · rw [hkeep hr]
    refine latch_line_read_other ch.out hr (fun hb _ => hframe (hb.trans hj.symm)) fun i g hb hg => hstart g (by omega) ?_
    rw [hb, hj, Nat.add_sub_cancel_left, Chain.stage_succ, hg]

/-- R146: the stages of a flushed chain. -/
theorem Chain.stages_of_flushed {P : Params} {ch : Chain} (hwf : ch.wf) (h : ch.flushed P = true) :
    ch.stages = List.replicate ch.depth (nopFrame P) :=
  List.eq_replicate_iff.2 ⟨Chain.stages_length hwf, by simpa [Chain.flushed] using h⟩

theorem line_nopFrame (P : Params) (j k : Nat) :
    line P (nopFrame P) j (List.replicate k (nopFrame P)) = List.replicate (j + k + 1) (nopFrame P) := by
  rw [line, ← List.replicate_succ, List.replicate_append_replicate, Nat.add_assoc]

/-- On a flushed chain a latch of the line writes, of the registers other than the no-op register, only that of the frame in
board `j + 1`. -/
theorem latch_line_read_other_of_flushed {P : Params} {f : Frame} {j depth b : Nat} {r : Byte} (out : Memory)
    (hr : r ≠ P.nopCmd) (hf : ¬(b = j + 1 ∧ b ≤ depth ∧ r = f.1)) :
    (latchFrom 1 ((line P f j (List.replicate depth (nopFrame P))).take depth) out).read (outAddr b r) =
      out.read (outAddr b r) :=
  latch_line_read_other out hr (fun hb hd hr' => hf ⟨hb, hd, hr'⟩) fun _ g _ hg => by
    obtain rfl : g = nopFrame P := List.eq_of_mem_replicate (List.mem_of_getElem? hg)
    exact hr

/-- Settles O29: next to the stages stands a no-op pair, from the pads on a shorter chain and from the start on a longer one;
the first edge latches the frame in board `p`, the second in board `N + 1`. -/
theorem transactOnAChainOfAnotherLength : Obligations.TransactOnAChainOfAnotherLength := by
  intro s ch p n c d hready hu henv hwf hflushed hdepth hp hn hframe hc
  obtain ⟨t, ch', last, hexec, henv', hlast, hkind, hpass, hecho, -, -, -, hout⟩ :=
    exec_transact_onChain c d hready hu henv hwf hp hn hc
  rw [Chain.stages_of_flushed hwf hflushed] at hlast hout
  rw [transactOut, List.length_replicate] at hout
  obtain rfl : last = nopFrame s.params := by
    rcases line_getElem?_eq_some hlast with h | ⟨h, -⟩ | ⟨_, -, h⟩
    · exact h
    · exact absurd h hdepth
    · exact List.eq_of_mem_replicate (List.mem_of_getElem? h)
  obtain ⟨j, hj⟩ : ∃ j, p.toNat = j + 1 := Nat.exists_eq_add_one.2 hp
  rw [hj, Nat.add_sub_cancel] at hout
  rw [if_neg hframe.symm] at hkind
  rw [decide_eq_false hframe.symm] at hpass
  refine ⟨t, ch', hexec, henv', hkind, hpass, hecho, fun hpd hr => ?_, fun hlt => ?_, fun b r hr hb hb' => ?_⟩
  · rw [hout, latch_line_read_other_of_flushed _ hr (by omega), hj]
    exact latch_line_read_frame (f := (c, d)) ch.out (by omega)
  · rw [hout]
    exact latch_line_read_frame (f := (c, d)) _ hlt
  · rw [hout, latch_line_read_other_of_flushed _ hr hb', latch_line_read_other_of_flushed _ hr (by rwa [← hj])]

/-- Settles O30: the whole line is no-op pairs. -/
theorem transactOfTheNoOpPairAlwaysPassesWhenFlushed : Obligations.TransactOfTheNoOpPairAlwaysPassesWhenFlushed := by
  intro s ch p n hready hu henv hwf hflushed hp hn hc
  obtain ⟨t, ch', last, hexec, henv', hlast, hkind, -, -, -, -, hstages, -⟩ :=
    exec_transact_onChain s.params.nopCmd s.params.nopData hready hu henv hwf hp hn hc
  rw [Chain.stages_of_flushed hwf hflushed, ← nopFrame, line_nopFrame] at hlast hstages
  obtain rfl : last = nopFrame s.params := List.eq_of_mem_replicate (List.mem_of_getElem? hlast)
  exact ⟨t, ch', hexec, hkind.trans (if_pos rfl), henv', by simp [Chain.flushed, hstages]⟩

/-! ### The events of TRANSACT -/

section
variable (f : Frame) (rs : List Frame)

@[simp] theorem pairs_countP_isXfer : (rs.flatMap (pairEvents f)).countP BusEvent.isXfer = 2 * rs.length := by
  induction rs with
  | nil => rfl
  | cons r rs ih =>
    have hpair : (pairEvents f r).countP BusEvent.isXfer = 2 := rfl
    rw [List.flatMap_cons, List.countP_append, hpair, ih, List.length_cons]
    omega

@[simp] theorem pairs_length : (rs.flatMap (pairEvents f)).length = 2 * rs.length := by
  simp [List.length_flatMap, pairEvents, Nat.mul_comm]

theorem pairs_count_edge {e : BusEvent} (he : e.isXfer = false) : (rs.flatMap (pairEvents f)).count e = 0 := by
  refine List.count_eq_zero.2 fun hmem => ?_
  obtain ⟨r, -, hr⟩ := List.mem_flatMap.1 hmem
  rcases List.mem_pair.1 hr with rfl | rfl <;> cases he

end

/-- R95, R154: the counts of the trace of R93. -/
theorem transactTrace_counts (P : Params) (c d : Byte) (r : Frame) (leads trails : List Frame) :
    (transactTrace P c d r leads trails).countP BusEvent.isXfer = 2 * (leads.length + trails.length) + 2 ∧
      (transactTrace P c d r leads trails).count .csLow = 2 ∧ (transactTrace P c d r leads trails).count .csHigh = 2 ∧
      (transactTrace P c d r leads trails).length = 2 * (leads.length + trails.length) + 6 := by
  refine ⟨?_, ?_, ?_, ?_⟩
  · simp [transactTrace, pairEvents, List.countP_cons, BusEvent.isXfer]
    omega
  · simp [transactTrace, pairEvents, pairs_count_edge (e := .csLow) _ _ rfl]
  · simp [transactTrace, pairEvents, pairs_count_edge (e := .csHigh) _ _ rfl]
  · simp [transactTrace, pairEvents]
    omega

/-- Settles O26: the counts of the trace TRANSACT completes with. -/
theorem transactEventCounts : Obligations.TransactEventCounts := by
  intro s p n c d hready hu hp hn hc
  obtain ⟨t, r, last, leads, trails, hexec, hleads, htrails, -, htrace, -⟩ := transactCompletes s p n c d hready hu hp hn hc
  obtain ⟨hxfer, hlow, hhigh, hlen⟩ := transactTrace_counts s.params c d r leads trails
  exact ⟨t, _, hexec, htrace, hxfer.trans (by omega), hlow, hhigh, hlen.trans (by omega)⟩

/-! ### TRANSACT with bad arguments -/

/-- Settles O22: the arguments fail the check, so nothing but the result is written. -/
theorem transactWithBadArgumentsIsRejected : Obligations.TransactWithBadArgumentsIsRejected := by
  intro s p n c d hready h
  have ha : badArgs p n = true := by
    rw [← Bool.not_eq_false, badArgs_eq_false]
    omega
  rw [exec_of_ready hready, instrBody, transactBody, if_pos ha]
  rfl

end Sys2Proof.Machine

/-! Proofs of O33, O34, O37 and O38 (family `41_detect`): DETECT on a reference chain with a stale sentinel and on one longer
than its bound, the events it makes, and a DETECT whose expected count cannot be found. -/

namespace Sys2Proof.Machine

/-! ### DETECT on a reference chain: an early match -/

/-- R53: the stages of a chain cut above board `k`: those below the cut, those above it but for the top one, and the top one. -/
theorem Chain.stages_eq_append_above {ch : Chain} (h : ch.wf) {k : Nat} (hk : k < ch.depth) :
    ∃ low gone top, ch.stages = low ++ gone ++ [top] ∧ low.length = k ∧ gone.length + k + 1 = ch.depth ∧
      ∀ f ∈ gone, ∃ i, k < i ∧ i < ch.depth ∧ ch.stage i = some f := by
  obtain ⟨below, top, hst, hlen, -⟩ := Chain.stages_eq_append_top h
  have hdrop : (below.drop k).length + k + 1 = ch.depth := by rw [List.length_drop]; omega
  refine ⟨below.take k, below.drop k, top, by rw [List.take_append_drop, hst], List.length_take_of_le (by omega), hdrop,
    fun f hf => ?_⟩
  obtain ⟨i, hi, rfl⟩ := List.getElem_of_mem hf
  refine ⟨k + i + 1, by omega, by omega, ?_⟩
  rw [Chain.stage_succ, hst, List.getElem?_append_left (by rw [List.length_drop] at hi; omega), ← List.getElem?_drop,
    List.getElem?_eq_getElem hi]

/-- Settles O37: the scan goes past the stages between the stale sentinel and the top and meets the stale sentinel; as many
no-op pairs as it has made stand below the sentinel it sent when the edge latches. -/
theorem detectMatchesAStaleSentinelEarly : Obligations.DetectMatchesAStaleSentinelEarly := by
  intro s ch e j hready hu hlegal henv hwf hj1 hj hstale hclear hmax hc
  obtain ⟨low, gone, top, hst, hlow, hgone, habove⟩ := Chain.stages_eq_append_above hwf hj
  have hcount : gone.length + 1 = ch.depth - j := by omega
  obtain ⟨i, rfl⟩ : ∃ i, j = i + 1 := Nat.exists_eq_add_one.2 hj1
  obtain ⟨low, last, rfl⟩ : ∃ low' last, low = low' ++ [last] := by
    obtain rfl | h := List.eq_nil_or_concat' low
    · cases hlow
    · exact h
  obtain rfl : last = sentinelFrame s.params := by
    have hi : low.length = i := by simpa using hlow
    simpa [Chain.stage_succ, hst, ← hi] using hstale
  have hno : ∀ f ∈ gone, f ≠ sentinelFrame s.params := by
    intro f hf
    obtain ⟨k, hk, hk', hstage⟩ := habove f hf
    exact hclear k f hk hk' hstage
  have hchain : (accept s).OnChain ch.stages ch.out (2 * (gone.length + 1) + 2) :=
    ⟨⟨ch, henv, hwf, rfl, rfl⟩, by rw [hcount]; exact hc⟩
  obtain ⟨ch', hch', hstages, hout, hdet, -, hkind, -⟩ := detectBody_of_match (s := accept s)
    (keep := sentinelFrame s.params :: low) (gone := gone) (top := top) e hu hlegal hchain (by simp [hst]) hno
    (by rw [hcount]; exact hmax)
  have hsent : ch'.stages[gone.length + 1]? = some (sentinelFrame s.params) := by
    rw [hstages]
    exact line_getElem?_self s.params _ _ low
  rw [hcount] at hdet hkind hsent
  refine ⟨_, ch', exec_of_ready hready _, hch', hdet, hkind, by rw [Chain.stage_succ, hsent], ?_⟩
  rw [hout]
  exact latch_read_stage ch.out (Nat.succ_pos _) hsent

/-! ### DETECT on a reference chain: no match -/

/-- R112: on a chain that returns only stages without the sentinel for as long as the bound allows, DETECT reports no count;
its last edge latches the no-op pairs shifted in and, above them, the stages left. -/
theorem detectBody_of_no_match {stages keep gone : List Frame} {top : Frame} {out : Memory} {s : State} (e : Nibble)
    (hu : s.undisturbed) (hlegal : s.params.legal = true) (h : s.OnChain stages out (2 * s.params.calMax + 2))
    (hshift : sentinelFrame s.params :: stages = keep ++ gone ++ [top])
    (hgone : ∀ f ∈ gone, f ≠ sentinelFrame s.params) (hn : gone.length = s.params.calMax) :
    ∃ ch', (detectBody e s).env = .reference ch' ∧
      ch'.stages = List.replicate s.params.calMax (nopFrame s.params) ++ keep ∧ ch'.out = latchFrom 1 ch'.stages out ∧
      (detectBody e s).cal = { detected := 0#4, expected := e } ∧ (detectBody e s).status.kind = .notFound ∧
      (detectBody e s).status.calOk = false := by
  have hlow : (csLow s).OnChain stages out (2 * s.params.calMax + 2) := ⟨h.env, h.completes⟩
  obtain ⟨t, hsent, htchain, htparams, htcs⟩ := xferPair_onChain hlow hshift
  have hp : t.params = s.params := htparams
  rw [← Nat.zero_add (2 * _), ← hn] at htchain
  obtain ⟨u, hscan, huchain, -, hucs⟩ := scan_past (left := 0) (k := 0) htchain (by rwa [hp])
  rw [Nat.zero_add, hn] at hscan
  rw [hp, hn] at huchain
  obtain ⟨ch', henv, hstages, hout⟩ := csHigh_onChain huchain (hucs.trans htcs)
  rw [detectBody_of_procedure hu hlegal hsent hscan, reportCount_eq]
  exact ⟨ch', henv, hstages, by rw [hstages, hout], rfl, rfl, rfl⟩

/-- Settles O38: the scan ends at its bound before the stage that holds the sentinel it sent, which then stands above
`CAL_MAX` no-op pairs. -/
theorem detectOnATooLongChainIsNotFound : Obligations.DetectOnATooLongChainIsNotFound := by
  intro s ch e hready hu hlegal henv hwf hlong hclear hc
  obtain ⟨low, gone, top, hst, hlow, hgone, habove⟩ :=
    Chain.stages_eq_append_above hwf (k := ch.depth - s.params.calMax - 1) (by omega)
  have hno : ∀ f ∈ gone, f ≠ sentinelFrame s.params := by
    intro f hf
    obtain ⟨k, hk, hk', hstage⟩ := habove f hf
    exact hclear k f (by omega) hk' hstage
  obtain ⟨ch', hch', hstages, hout, hcal, hkind, hok⟩ := detectBody_of_no_match (s := accept s)
    (keep := sentinelFrame s.params :: low) (gone := gone) (top := top) e hu hlegal ⟨⟨ch, henv, hwf, rfl, rfl⟩, hc⟩
    (by simp [hst]) hno (by rw [accept_params]; omega)
  have hsent : ch'.stages[s.params.calMax]? = some (sentinelFrame s.params) := by
    rw [hstages]
    exact line_getElem?_self s.params _ _ low
  refine ⟨_, ch', exec_of_ready hready _, hch', hkind, by rw [instrBody, hcal], by rw [instrBody, hcal], hok, ?_⟩
  rw [hout]
  exact latch_read_stage ch.out (Nat.succ_pos _) hsent

/-! ### The events of DETECT -/

/-- R115, R154: the counts of the trace of R113, and the edges it begins and ends with. -/
theorem detectTrace_counts (P : Params) (r : Frame) (scans : List Frame) :
    (detectTrace P r scans).countP BusEvent.isXfer = 2 * scans.length + 2 ∧
      (detectTrace P r scans).count .csLow = 1 ∧ (detectTrace P r scans).count .csHigh = 1 ∧
      (detectTrace P r scans).head? = some .csLow ∧ (detectTrace P r scans).getLast? = some .csHigh := by
  refine ⟨?_, ?_, ?_, rfl, List.getLast?_concat⟩
  · simp [detectTrace, pairEvents, List.countP_cons, BusEvent.isXfer]
  · simp [detectTrace, pairEvents, pairs_count_edge (e := .csLow) _ _ rfl]
  · simp [detectTrace, pairEvents, pairs_count_edge (e := .csHigh) _ _ rfl]

/-- R111, R112: what a DETECT that ends reports: a match at a count within the bound, with `OK` exactly at `E`, or no match. -/
theorem detect_reports {s : State} {e : Nibble} (hready : s.ready) (hu : s.undisturbed) (hlegal : s.params.legal = true)
    (hc : s.completesAtLeast (2 * s.params.calMax + 2)) :
    ∃ (t : State) (r : Frame) (scans : List Frame), exec (.detect e) s = .next t ∧
      t.trace = s.trace ++ detectTrace s.params r scans ∧ t.status.busy = false ∧ t.status.done = true ∧
      1 ≤ scans.length ∧ scans.length ≤ s.params.calMax ∧
      (t.status.kind = .notFound ∧ scans.length = s.params.calMax ∨
        t.cal.detected.toNat = scans.length ∧ t.status.kind = if scans.length = e.toNat then .ok else .lengthMismatch) := by
  obtain ⟨t, r, last, scans, hexec, hmin, hmax, -, -, hbound, htrace, -, -, hdet, hstatus, -⟩ :=
    detectCompletes s e hready hu hlegal hc
  refine ⟨t, r, scans, hexec, htrace, by rw [hstatus], by rw [hstatus], hmin, hmax, ?_⟩
  by_cases h : last = sentinelFrame s.params
  · exact .inr ⟨by rw [hdet, if_pos h], by rw [hstatus, if_pos h]⟩
  · exact .inl ⟨by rw [hstatus, if_neg h], hbound h⟩

/-- Settles O33: the counts of the trace DETECT completes with, by whether it matched. -/
theorem detectEventCounts : Obligations.DetectEventCounts := by
  intro s e hready hu hlegal hc
  obtain ⟨t, r, scans, hexec, htrace, -, -, hmin, hmax, hreport⟩ := detect_reports (e := e) hready hu hlegal hc
  obtain ⟨hxfer, hlow, hhigh, hhead, hlast⟩ := detectTrace_counts s.params r scans
  rcases hreport with ⟨hkind, hlen⟩ | ⟨hdet, hkind⟩
  · exact ⟨t, _, hexec, htrace, by rw [hxfer, if_pos hkind, hlen], hlow, hhigh, hhead, hlast, absurd hkind⟩
  · have hfound : t.status.kind ≠ .notFound := by rw [hkind]; split <;> nofun
    exact ⟨t, _, hexec, htrace, by rw [hxfer, if_neg hfound, hdet], hlow, hhigh, hhead, hlast,
      fun _ => by rw [hdet]; exact ⟨hmin, hmax⟩⟩

/-! ### An operation on a bus that never stalls

What the engine does while exchanges complete it does also on a bus on which they all complete: an operation that ends, ends
there too, and with the same result. -/

/-- The state with every exchange to come completing (R155). -/
def State.neverStalls (s : State) : State := { s with shift := { s.shift with completes := none } }

theorem xfer_neverStalls {tx rx : Byte} {s t : State} (h : xfer tx s = some (rx, t)) :
    xfer tx s.neverStalls = some (rx, t.neverStalls) := by
  obtain ⟨-, rfl, rfl⟩ := xfer_eq_some h
  rfl

theorem pairMove_neverStalls {f : Frame} {opening : State → State} {closing : Frame → State → State} {s t : State}
    (hopen : opening s.neverStalls = (opening s).neverStalls)
    (hclose : ∀ r u, closing r (State.neverStalls u) = (closing r u).neverStalls)
    (h : pairMove f opening closing s = some t) : pairMove f opening closing s.neverStalls = some t.neverStalls := by
  have hhalf : s.neverStalls.engine.half = s.engine.half := rfl
  rcases pairMove_eq_some h with ⟨rx, u, hh, hx, rfl⟩ | ⟨rx, u, hh, hx, rfl⟩
  · simp only [pairMove, hhalf, hh, hopen, xfer_neverStalls hx]
    rfl
  · simp only [pairMove, hhalf, hh, xfer_neverStalls hx]
    exact congrArg some (hclose _ (pairDone u))

theorem closeScan_neverStalls (r : Frame) (s : State) : closeScan r s.neverStalls = (closeScan r s).neverStalls := by
  simp only [closeScan, apply_ite State.neverStalls]
  rfl

theorem endDetect_neverStalls (found : Bool) (s : State) :
    endDetect found s.neverStalls = (endDetect found s).neverStalls := by
  rw [endDetect, endDetect, reportCount_eq, reportCount_eq]
  rfl

/-- A move of the engine is made on a bus that never stalls as well. -/
theorem engineStep_neverStalls {s t : State} (h : engineStep s = some t) :
    engineStep s.neverStalls = some t.neverStalls := by
  have hengine : s.neverStalls.engine = s.engine := rfl
  have hparams : s.neverStalls.params = s.params := rfl
  have hscan : scanExhausted s.neverStalls = scanExhausted s := rfl
  rcases engineStep_eq_some h with ⟨hf, rfl⟩ | ⟨hf, hp⟩ | ⟨hf, hc, rfl⟩ | ⟨hf, hc, hp⟩ | ⟨hf, rfl⟩ | ⟨hf, hc, rfl⟩ |
    ⟨hf, hc, hp⟩ | ⟨hf, rfl⟩ | ⟨hf, rfl⟩ | ⟨hf, hp⟩ | ⟨hf, hx, rfl⟩ | ⟨hf, hx, hp⟩ | ⟨found, hf, rfl⟩ <;>
    simp only [engineStep, hengine, hparams, hscan, hf]
  · rfl
  · exact pairMove_neverStalls rfl (fun _ _ => rfl) hp
  · rw [if_pos hc]
    rfl
  · rw [if_neg hc]
    exact pairMove_neverStalls rfl (fun _ _ => rfl) hp
  · rfl
  · rw [if_pos hc]
    rfl
  · rw [if_neg hc]
    exact pairMove_neverStalls rfl (fun _ _ => rfl) hp
  · rfl
  · rfl
  · exact pairMove_neverStalls rfl (fun _ _ => rfl) hp
  · rw [if_pos hx]
    rfl
  · rw [hx]
    exact pairMove_neverStalls (opening := openScan) rfl closeScan_neverStalls hp
  · exact congrArg some (endDetect_neverStalls found s)

theorem moves_neverStalls {s t : State} (h : Moves s t) : Moves s.neverStalls t.neverStalls :=
  h.lift State.neverStalls fun _ _ ⟨hb, hm⟩ => ⟨hb, engineStep_neverStalls hm⟩

/-- What an operation that nothing disturbs does is moves of the engine. -/
theorem moves_runTurns {s : State} (hu : s.undisturbed) (k : Nat) : Moves s (runTurns k s) := by
  induction k generalizing s with
  | zero => exact .refl
  | succ k ih =>
    cases ht : turn s with
    | none => rw [runTurns_of_turn_none ht]
    | some t =>
      obtain ⟨hb, -⟩ := turn_eq_some ht
      have hm : engineStep s = some t := (turn_of_undisturbed hb hu).symm.trans ht
      rw [runTurns_succ ht]
      exact .head ⟨hb, hm⟩ (ih (by rwa [State.undisturbed, (engineStep_moveFrame hm).port]))

/-- A DETECT that nothing disturbs and that ends, ends the same on a bus that never stalls. -/
theorem detectBody_neverStalls {s : State} {e : Nibble} (hu : s.undisturbed) (hlegal : s.params.legal = true)
    (h : (detectBody e s).status.busy = false) : detectBody e s.neverStalls = (detectBody e s).neverStalls := by
  have hmax : s.params.calMax ≤ 15 := (Params.legal_calMax hlegal).2
  have hmoves : Moves (setBusy (latchDetect e s)) (detectBody e s) :=
    moves_runTurns (s := setBusy (latchDetect e s)) hu _
  exact runOperation_of_moves hu hmax (movesLeft_beginDetect hmax e) (moves_neverStalls hmoves) h

/-- Settles O34: a DETECT that ends, ends as on a bus that never stalls, and there the count it reports is within the bound
and not zero, so it is not `E`. -/
theorem detectWithAnImpossibleCountNeverPasses : Obligations.DetectWithAnImpossibleCountNeverPasses := by
  intro s e hready hu hlegal he
  refine ⟨_, exec_of_ready hready _, fun hend => ?_, fun hc => ?_⟩
  · obtain ⟨t, -, scans, hexec, -, -, hdone, hmin, hmax, hreport⟩ :=
      detect_reports (s := s.neverStalls) (e := e) hready hu hlegal nofun
    have hmax' : scans.length ≤ s.params.calMax := hmax
    have ht : (detectBody e (accept s)).neverStalls = t := by
      rw [← detectBody_neverStalls (s := accept s) hu hlegal hend]
      exact Host.Outcome.next.inj ((exec_of_ready (s := s.neverStalls) hready _).symm.trans hexec)
    rw [if_neg (show ¬scans.length = e.toNat by omega)] at hreport
    subst ht
    exact ⟨hdone, hreport.symm.imp And.right And.left⟩
  · obtain ⟨t, -, -, hexec, -, hidle, -⟩ := detect_reports (e := e) hready hu hlegal hc
    obtain rfl := Host.Outcome.next.inj ((exec_of_ready hready _).symm.trans hexec)
    exact hidle

end Sys2Proof.Machine

/-! Proofs of O23, O40 and O49 (family `60_exceptions`): command words are never refused, results persist, and an operation ends or
hangs at an exchange. -/

namespace Sys2Proof.Machine

/-! ### A command word after bring-up -/

/-- R76, R77, R140: after bring-up a write to `CMD` is dropped or accepted. -/
theorem submit_of_setup {s : State} (hs : s.shift.setup.isSome = true) (body : State → State) :
    submit body s = .next (if s.status.busy then dropCommand s else body (accept s)) := by
  unfold submit
  rw [if_pos hs]
  split <;> rfl

/-- R125, R128: after bring-up every command word has an effect, whether it decodes or not. -/
theorem writeCommand_of_setup {s : State} (hs : s.shift.setup.isSome = true) (w : Word) :
    ∃ t, writeCommand exec w s = .next t := by
  unfold writeCommand
  split
  case h_1 i _ => cases i <;> exact ⟨_, submit_of_setup hs _⟩
  case h_2 => exact ⟨_, submit_of_setup hs _⟩

/-- Settles O49: the access is of the interface, so the step is the write of the command word. -/
theorem commandsNeitherFaultNorAreRefused : Obligations.CommandsNeitherFaultNorAreRefused := by
  intro s rest w hs hp
  rw [step_of_command hp]
  exact writeCommand_of_setup (s := { s with port := rest }) hs w

/-! ### A result persists -/

/-- R94: in `IDLE` the engine has no move. -/
theorem advance_of_idle {s : State} (hf : s.engine.fsm = .idle) : advance s = s := by
  simp [advance, engineStep, hf]

/-- Settles O23: reads, other writes and the bring-up hook touch no register of the framer, and an idle engine does not move. -/
theorem resultPersistsUntilTheNextCommandOrReset : Obligations.ResultPersistsUntilTheNextCommandOrReset := by
  intro s t hb hf hstep hcmd hreset
  have hidle (rest : List PortEvent) : advance { s with port := rest } = { s with port := rest } := advance_of_idle hf
  rcases portStep_eq_next hstep with ⟨-, rfl⟩ | ⟨_, width, v, rest, hp, -, ⟨rfl, -⟩ | ⟨-, rfl⟩⟩ | ⟨_, _, _, -, -, rfl⟩ |
    ⟨_, -, ⟨hb', -⟩ | ⟨-, rfl⟩⟩ | ⟨rest, -, rfl⟩ | ⟨rest, hp, -⟩ | ⟨_, -, -, -, rfl⟩
  · simp [advance_of_idle hf]
  · exact absurd hp (hcmd v width rest)
  · simp
  · simp
  · simp [hb] at hb'
  · simp
  · simp [hidle rest]
  · exact absurd hp (hreset rest)
  · simp

/-! ### The flags and `cs_n` while an operation runs

O40 asks nothing of `CAL` and of the environment, so it cannot start from the whole invariant `State.Inv`. -/

/-- R26, R27, R36: `BUSY`, `DONE` and `cs_n` are those of the engine step, from the acceptance of a command on. -/
structure State.FlagsFit (s : State) : Prop where
  busy : s.status.busy = decide (s.engine.fsm ≠ .idle)
  done : s.status.done = !s.status.busy
  level : s.csN = s.engine.fsm.level

/-- A move inside an operation keeps the flags fitting, if it leaves `cs_n` as the engine step it goes to wants it. -/
theorem State.FlagsFit.of_running {s t : State} (h : s.FlagsFit) (hst : t.status = s.status)
    (hop : t.engine.fsm.op = s.engine.fsm.op) (hlevel : t.csN = t.engine.fsm.level) : t.FlagsFit where
  busy := by
    rw [hst, h.busy]
    simp only [ne_eq, ← Fsm.op_eq_none, hop]
  done := hst ▸ h.done
  level := hlevel

/-- R15: a result with the engine idle and `cs_n` high fits. -/
theorem State.FlagsFit.of_finished {t : State} {k : Kind} {f : Status} (hst : t.status = f.finish k)
    (hidle : t.engine.fsm = .idle) (hcs : t.csN = .high) : t.FlagsFit := by
  constructor <;> simp [hst, hidle, hcs, Status.finish, Fsm.level]

/-- The flags fit alike in two states of one engine step. -/
theorem State.FlagsFit.of_same_step {s t : State} (h : s.FlagsFit) (hst : t.status = s.status) (hcs : t.csN = s.csN)
    (hf : t.engine.fsm = s.engine.fsm) : t.FlagsFit :=
  h.of_running hst (congrArg Fsm.op hf) (by rw [hcs, hf, h.level])

theorem goto_flagsFit {q r : Fsm} {s : State} (h : s.FlagsFit) (hf : s.engine.fsm = r) (hop : q.op = r.op)
    (hlevel : q.level = r.level) : (goto q s).FlagsFit :=
  h.of_running rfl (by rw [hf]; exact hop) (h.level.trans (by rw [hf]; exact hlevel.symm))

theorem xfer_flagsFit {tx rx : Byte} {s t : State} (h : s.FlagsFit) (hx : xfer tx s = some (rx, t)) : t.FlagsFit := by
  obtain ⟨-, hst, -, -, hcs, he, -⟩ := xfer_frame hx
  exact h.of_same_step hst hcs (congrArg Engine.fsm he)

/-- A pair exchange keeps the flags fitting if what its row does before and after the exchange does. -/
theorem pairMove_flagsFit {f : Frame} {opening : State → State} {closing : Frame → State → State} {s t : State}
    (h : s.FlagsFit) (hm : pairMove f opening closing s = some t) (hopen : (opening s).FlagsFit)
    (hclose : ∀ r u, u.FlagsFit → u.engine.fsm = s.engine.fsm → (closing r u).FlagsFit) : t.FlagsFit := by
  rcases pairMove_eq_some hm with ⟨rx, u, -, hx, rfl⟩ | ⟨rx, u, -, hx, rfl⟩
  · exact (xfer_flagsFit hopen hx).of_same_step rfl rfl rfl
  · have hu : u.engine.fsm = s.engine.fsm := congrArg Engine.fsm (xfer_engine hx)
    exact hclose _ _ ((xfer_flagsFit h hx).of_same_step rfl rfl rfl) hu

theorem closeScan_flagsFit {s : State} (h : s.FlagsFit) (hf : s.engine.fsm = .dScan) (r : Frame) :
    (closeScan r s).FlagsFit := by
  have hr : (capture r s).FlagsFit := h.of_same_step rfl rfl rfl
  unfold closeScan
  split
  · exact goto_flagsFit hr hf rfl rfl
  · exact hr

/-- R94, R114: every row keeps the flags fitting. -/
theorem engineStep_flagsFit {s t : State} (h : s.FlagsFit) (hm : engineStep s = some t) : t.FlagsFit := by
  have hop {q r : Fsm} (hf : s.engine.fsm = r) (hq : q.op = r.op) : q.op = s.engine.fsm.op := hf ▸ hq
  rcases engineStep_eq_some hm with ⟨hf, rfl⟩ | ⟨hf, hp⟩ | ⟨hf, -, rfl⟩ | ⟨-, -, hp⟩ | ⟨hf, rfl⟩ | ⟨hf, -, rfl⟩ |
    ⟨-, -, hp⟩ | ⟨-, rfl⟩ | ⟨hf, rfl⟩ | ⟨hf, hp⟩ | ⟨hf, -, rfl⟩ | ⟨hf, -, hp⟩ | ⟨found, -, rfl⟩
  · exact h.of_running rfl (hop hf rfl) rfl
  · exact pairMove_flagsFit h hp h fun _ _ hu hq => goto_flagsFit (hu.of_same_step rfl rfl rfl) (hq.trans hf) rfl rfl
  · exact goto_flagsFit h hf rfl rfl
  · exact pairMove_flagsFit h hp h fun _ _ hu _ => hu.of_same_step rfl rfl rfl
  · exact h.of_running rfl (hop hf rfl) rfl
  · exact goto_flagsFit h hf rfl rfl
  · exact pairMove_flagsFit h hp h fun _ _ hu _ => hu.of_same_step rfl rfl rfl
  · exact .of_finished rfl rfl rfl
  · exact h.of_running rfl (hop hf rfl) rfl
  · exact pairMove_flagsFit h hp h fun _ _ hu hq => goto_flagsFit hu (hq.trans hf) rfl rfl
  · exact goto_flagsFit h hf rfl rfl
  · exact pairMove_flagsFit h hp (h.of_same_step rfl rfl rfl) fun r _ hu hq => closeScan_flagsFit hu (hq.trans hf) r
  · rw [endDetect, reportCount_eq]
    exact .of_finished rfl rfl rfl

theorem moves_flagsFit {s t : State} (h : s.FlagsFit) (hm : Moves s t) : t.FlagsFit := by
  induction hm with
  | refl => exact h
  | tail _ hmove ih => exact engineStep_flagsFit ih hmove.2

theorem moves_moveFrame {s t : State} (hm : Moves s t) : MoveFrame s t := by
  induction hm with
  | refl => exact .refl s
  | tail _ hmove ih => exact ih.trans (engineStep_moveFrame hmove.2)

/-! ### How an operation that nothing disturbs stops -/

theorem engineStep_of_turn {s t : State} (hu : s.undisturbed) (h : turn s = some t) : engineStep s = some t :=
  (turn_of_undisturbed (turn_eq_some h).1 hu).symm.trans h

/-- R94, R114: turns enough for the engine's moves leave no turn to take. -/
theorem turn_runTurns_eq_none {k : Nat} {s : State} (hu : s.undisturbed) (hmax : s.params.calMax ≤ 15)
    (hk : movesLeft s ≤ k) : turn (runTurns k s) = none := by
  induction k generalizing s with
  | zero =>
    refine Option.eq_none_iff_forall_ne_some.2 fun t ht => ?_
    have hlt := engineStep_movesLeft hmax (engineStep_of_turn hu ht)
    omega
  | succ k ih =>
    cases ht : turn s with
    | none => rwa [runTurns_of_turn_none ht]
    | some t =>
      have hm := engineStep_of_turn hu ht
      have hlt := engineStep_movesLeft hmax hm
      have hframe := engineStep_moveFrame hm
      rw [runTurns_succ ht]
      exact ih (by rwa [State.undisturbed, hframe.port]) (by rwa [hframe.params]) (by omega)

/-- R151: outside `IDLE` the engine has no move only at an exchange that never completes. -/
theorem stalled_of_engineStep_eq_none {s : State} (h : engineStep s = none) (hf : s.engine.fsm ≠ .idle) :
    s.engine.fsm.exchanges = true ∧ s.shift.completes = some 0 := by
  cases hq : s.engine.fsm <;> simp only [engineStep, hq, reduceCtorEq] at h
  case idle => exact absurd hq hf
  case tAddr | dSent => exact ⟨rfl, (pairMove_eq_none rfl).1 h⟩
  case tLead | tTrail | dScan =>
    split at h
    · cases h
    · exact ⟨rfl, (pairMove_eq_none rfl).1 h⟩

/-- R36: every row that exchanges pairs has `cs_n` low. -/
theorem Fsm.level_of_exchanges {q : Fsm} (h : q.exchanges = true) : q.level = .low := by
  cases q <;> simp [Fsm.exchanges, Fsm.level] at h ⊢

/-- What an accepted command leaves when it stops: the flags fit its engine step, no turn is left, and the port is as before. -/
structure StoppedAfter (s t : State) : Prop where
  fits : t.FlagsFit
  stopped : turn t = none
  port : t.port = s.port

theorem runOperation_stops {s : State} (h : s.FlagsFit) (hu : s.undisturbed) (hmax : s.params.calMax ≤ 15)
    (hm : movesLeft s ≤ operationTurns) : StoppedAfter s (runOperation s) where
  fits := moves_flagsFit h (moves_runTurns hu _)
  stopped := turn_runTurns_eq_none hu hmax (by omega)
  port := (moves_moveFrame (moves_runTurns hu _)).port

/-- R78: an accepted command whose operands are latched begins its operation with the flags fitting. -/
theorem begin_flagsFit {s : State} (hcs : s.csN = .high) (e : Engine) (hq : e.fsm = .tStart ∨ e.fsm = .dStart) :
    (setBusy (accept { s with engine := e })).FlagsFit := by
  rcases hq with hq | hq <;> constructor <;> simp [hq, hcs, Fsm.level, Status.accept]

theorem instrBody_stops {s : State} (hf : s.engine.fsm = .idle) (hcs : s.csN = .high) (hu : s.undisturbed)
    (hmax : s.params.calMax ≤ 15) (i : Instr) : StoppedAfter s (instrBody i (accept s)) := by
  cases i with
  | transact p n c d =>
    simp only [instrBody, transactBody]
    split
    · exact ⟨.of_finished rfl hf hcs, turn_of_not_busy rfl, rfl⟩
    · rename_i ha
      have hstop := runOperation_stops (begin_flagsFit hcs (latchTransact p n c d s).engine (.inl rfl)) hu hmax
        (movesLeft_beginTransact (by simpa using ha) c d (accept s))
      exact { hstop with }
  | detect e =>
    have hstop := runOperation_stops (begin_flagsFit hcs (latchDetect e s).engine (.inr rfl)) hu hmax
      (movesLeft_beginDetect (s := accept s) hmax e)
    exact { hstop with }

/-- Settles O40: the turns suffice for the engine's moves, so the operation stops; it is over, or the engine has no move though
it is not idle. -/
theorem everyOperationEndsOrHangsAtAnExchange : Obligations.EveryOperationEndsOrHangsAtAnExchange := by
  intro s i hready hf hcs hu hlegal
  obtain ⟨hfits, hstop, hport⟩ := instrBody_stops hf hcs hu (Params.legal_calMax hlegal).2 i
  refine ⟨_, exec_of_ready hready i, ?_⟩
  generalize instrBody i (accept s) = t at *
  cases hb : t.status.busy with
  | false =>
    have hidle : t.engine.fsm = .idle := by simpa [hb] using hfits.busy
    exact .inl ⟨rfl, by rw [hfits.done, hb]; rfl, hidle, by rw [hfits.level, hidle]; rfl⟩
  | true =>
    have hrunning : t.engine.fsm ≠ .idle := by simpa [hb] using hfits.busy
    have hnone : engineStep t = none := by
      rw [← turn_of_undisturbed hb (by rwa [State.undisturbed, hport]), hstop]
    obtain ⟨hx, hc⟩ := stalled_of_engineStep_eq_none hnone hrunning
    exact .inr ⟨rfl, by rw [hfits.done, hb]; rfl, by rw [hfits.level, Fsm.level_of_exchanges hx], hx, hc, hnone⟩

end Sys2Proof.Machine

/-! Proofs of O8, O17 and O39 (family `70_reset_and_hazards`): reset, commands before bring-up, and a stalled exchange. -/

namespace Sys2Proof.Machine

/-! ### A step with nothing at the port -/

theorem step_of_empty_port {s : State} (hp : s.port = []) : step s = .next (advance s) := by
  simp only [step, portStep, hp]

/-- A state that a step answers with itself is where any number of steps ends. -/
theorem run_of_step_self {s : State} (h : step s = .next s) (k : Nat) : Host.Core.run Sys2Proof.core k s = .next s := by
  induction k with
  | zero => rfl
  | succ k ih => rw [run_succ_of_step h, ih]

/-! ### An exchange that never completes -/

/-- R151: on a stalled bus the engine has no move in a row that exchanges pairs, unless the row's count is used up and it leaves
without an exchange. -/
theorem engineStep_eq_none_of_stalled {s : State} (hx : s.engine.fsm.exchanges = true) (hc : s.shift.completes = some 0)
    (hpads : s.engine.fsm = .tLead ∨ s.engine.fsm = .tTrail → s.engine.cnt ≠ 0#4)
    (hscan : s.engine.fsm = .dScan → scanExhausted s = false) : engineStep s = none := by
  unfold engineStep
  cases hq : s.engine.fsm <;> simp only [hq, Fsm.exchanges, Bool.false_eq_true] at hx ⊢
  case tAddr | dSent => exact (pairMove_eq_none rfl).2 hc
  case tLead => rw [if_neg (hpads (.inl hq)), pairMove_eq_none rfl, hc]
  case tTrail => rw [if_neg (hpads (.inr hq)), pairMove_eq_none rfl, hc]
  case dScan => rw [hscan hq, if_neg Bool.false_ne_true, pairMove_eq_none rfl, hc]

theorem scanExhausted_eq_false {s : State} :
    scanExhausted s = false ↔ s.engine.half = .data ∨ s.engine.cnt.toNat < s.params.calMax := by
  cases hh : s.engine.half <;> simp [scanExhausted, hh]

/-- Settles O39: the engine has no move and no port event makes one, so the state answers itself. -/
theorem stalledExchangeHangsForEver : Obligations.StalledExchangeHangsForEver := by
  intro s k _ _ hx hp hc hpads hscan
  have hnone : engineStep s = none :=
    engineStep_eq_none_of_stalled hx hc hpads fun hq => scanExhausted_eq_false.2 (hscan hq)
  have hstep : step s = .next s := by rw [step_of_empty_port hp, advance, hnone, Option.getD_none]
  exact run_of_step_self hstep k

/-! ### Reset -/

theorem step_of_reset {s : State} {rest : List PortEvent} (hp : s.port = .reset :: rest) :
    step s = .next (resetFramer { s with port := rest }) := by
  simp only [step, portStep, hp]

/-- Settles O8: the registers are those of `State.reset`, reset adds no bus event, and the engine it leaves is idle. -/
theorem resetEventPutsTheFramerInReset : Obligations.ResetEventPutsTheFramerInReset := by
  intro s rest hp
  obtain ⟨hcs, hfsm, hstatus, -, hecho, hcal⟩ := resetLeavesTheResetValues
  refine ⟨_, [], step_of_reset hp, hcs, hfsm, hstatus, hecho, hcal, (List.append_nil _).symm, List.forall_mem_nil _, ?_⟩
  rw [step_of_empty_port rfl, advance_of_idle rfl]

/-! ### A command word before bring-up -/

theorem submit_of_no_setup {s : State} (hs : s.shift.setup = none) (body : State → State) :
    submit body s = .refused .commandBeforeBringUp := by
  simp [submit, hs]

/-- R140: before bring-up every command word is refused, whether it decodes or not. -/
theorem writeCommand_of_no_setup {s : State} (hs : s.shift.setup = none) (w : Word) :
    writeCommand exec w s = .refused .commandBeforeBringUp := by
  unfold writeCommand
  split
  case h_1 i _ => cases i <;> exact submit_of_no_setup hs _
  case h_2 => exact submit_of_no_setup hs _

/-- Settles O17: the write is of the interface and to `CMD`, and the shift engine is not set up. -/
theorem commandsBeforeBringUpAreRefused : Obligations.CommandsBeforeBringUpAreRefused := by
  intro s rest w hs hp
  rw [step_of_command hp]
  exact writeCommand_of_no_setup (s := { s with port := rest }) hs w

end Sys2Proof.Machine

/-! Proofs of O9, O10, O15, O16, O19 and O52: what a reset keeps and forgets, the environment at power-up, `WAIT`, the bring-up
hook, and a placed command word. -/

namespace Sys2Proof.Machine

/-! ### A chain of unspecified contents -/

/-- R42, R58, R139: each place of the queue holds the free byte of that place. -/
theorem Chain.unspecified_queue_getElem? (draw : Nat) {depth k : Nat} (h : k < 2 * depth) :
    (Chain.unspecified draw depth).queue[k]? = some (Config.freeStageByte draw k) := by
  simp [Chain.unspecified, h]

/-- R42, R58, R139: each output register of the boards holds the free byte of its address. -/
theorem Chain.unspecified_out_read (draw : Nat) {depth b : Nat} (hb : 1 ≤ b) (hd : b ≤ depth) (r : Byte) :
    (Chain.unspecified draw depth).out.read (outAddr b r) = some (Config.freeOutByte draw (outAddr b r)) :=
  Memory.read_map (outAddr_mem_registerAddrs.2 ⟨hb, hd⟩) _

/-- Settles O52: the constant of log 11 gives either the number of boards less one, or no reference chain. -/
theorem powerUpEnvironmentIsFree : Obligations.PowerUpEnvironmentIsFree := by
  cases h : Config.boardsAtPowerUp with
  | none => exact .inr (by simp only [State.reset, Env.powerUp, h])
  | some k =>
    obtain ⟨hdepth, hqueue, -⟩ := Chain.unspecified_wf 0 (Nat.succ_pos k)
    exact .inl ⟨Chain.unspecified 0 (k + 1), by simp only [State.reset, Env.powerUp, h], hdepth, hqueue,
      fun _ => Chain.unspecified_queue_getElem? 0, fun _ r hb hd => Chain.unspecified_out_read 0 hb hd r⟩

/-! ### What a reset keeps and forgets -/

/-- R139: a reset during an operation leaves the environment unspecified (log 9). -/
theorem resetFramer_env_of_busy {s : State} (hb : s.status.busy = true) :
    (resetFramer s).env = (s.env.disturbed s.rxDraws).1 := by
  rw [resetFramer_env, if_pos (.inl hb)]

/-- R139: a reset out of an operation leaves the environment alone. -/
theorem resetFramer_env_of_idle {s : State} (hb : s.status.busy = false) (hcs : s.csN = .high) :
    (resetFramer s).env = s.env := by
  simp [hb, hcs]

/-- Log 8: a reset out of an operation makes no free draw, if the bus is not stalled. -/
theorem resetFramer_rxDraws_of_idle {s : State} (hb : s.status.busy = false) (hcs : s.csN = .high)
    (hc : s.shift.completes ≠ some 0) : (resetFramer s).rxDraws = s.rxDraws := by
  simp [hb, hcs, ShiftEngine.resumed_of_not_stalled hc]

/-- Settles O9: a reset writes none of the fields kept, and how the bus goes on is `ShiftEngine.resumed`. -/
theorem resetKeepsWhatIsNotTheFramers : Obligations.ResetKeepsWhatIsNotTheFramers := by
  intro s rest hp
  refine ⟨_, step_of_reset hp, rfl, rfl, rfl, rfl, rfl, rfl, fun hc => ?_, fun hc => ?_⟩
  · rw [resetFramer_shift, ShiftEngine.resumed_of_not_stalled hc]
  · rw [resetFramer_shift, ShiftEngine.resumed_of_stalled hc]

/-- Settles O10: during an operation the environment is the disturbed one, a chain of unspecified contents and the same depth or
no answer; out of an operation it is the one before. -/
theorem resetDuringOperationForgetsTheChain : Obligations.ResetDuringOperationForgetsTheChain := by
  intro s rest hp
  have hbusy (hb : s.status.busy = true) :
      (resetFramer { s with port := rest }).env = (s.env.disturbed s.rxDraws).1 := resetFramer_env_of_busy hb
  refine ⟨_, step_of_reset hp, rfl, rfl, fun hb ch he => ?_, fun hb answers he => ?_, fun hb hcs => ⟨?_, fun hc => ?_⟩⟩
  · refine ⟨Chain.unspecified s.rxDraws ch.depth, ?_, rfl, fun _ => Chain.unspecified_queue_getElem? _,
      by simp [Chain.unspecified], fun _ r h1 hd => Chain.unspecified_out_read _ h1 hd r⟩
    rw [hbusy hb, he, Env.disturbed]
  · rw [hbusy hb, he, Env.disturbed]
  · exact resetFramer_env_of_idle hb hcs
  · exact resetFramer_rxDraws_of_idle hb hcs hc

/-! ### `WAIT` -/

/-- R82: while an operation runs, `WAIT` leaves the engine its turn. -/
theorem step_of_wait_busy {s : State} {rest : List PortEvent} (hp : s.port = .wait :: rest) (hb : s.status.busy = true) :
    step s = .next (advance s) := by
  simp only [step, portStep, hp, if_pos hb]

/-- R82: while none runs, `WAIT` is one read of `STATUS`. -/
theorem step_of_wait_idle {s : State} {rest : List PortEvent} (hp : s.port = .wait :: rest) (hb : s.status.busy = false) :
    step s = .next (hostRead 4 { s with port := rest }) := by
  simp only [step, portStep, hp, hb, if_neg Bool.false_ne_true]

/-- R25, R45: a read of `STATUS` notes its word and changes nothing else. -/
theorem hostRead_eq_of_status (s : State) : hostRead 4 s = { s with reads := s.reads ++ [(4, s.status.word)] } := by
  rw [hostRead, readValue_status, readUnspecified_eq_false (.inr (by decide)), if_neg Bool.false_ne_true]

/-- Settles O15: the last poll is a read of `STATUS`, and no move of the engine takes an event off the port. -/
theorem waitPollsUntilNotBusy : Obligations.WaitPollsUntilNotBusy := by
  refine fun s rest hp => ⟨fun hb => ?_, fun hb => ⟨step_of_wait_busy hp hb, (advance_moveFrame s).port⟩⟩
  rw [step_of_wait_idle hp hb, hostRead_eq_of_status]

/-! ### The bring-up hook -/

/-- R9. -/
theorem Params.legal_iff {P : Params} :
    P.legal = true ↔ (P.sentinelCmd, P.sentinelData) ≠ (P.nopCmd, P.nopData) ∧ 1 ≤ P.calMax ∧ P.calMax ≤ 15 := by
  simp only [Params.legal, Bool.and_eq_true, decide_eq_true_eq, and_assoc]

/-- R135, R140; log 12: the hook is refused while an operation runs. -/
theorem step_of_bringUp_busy {s : State} {rest : List PortEvent} (hp : s.port = .bringUp :: rest)
    (hb : s.status.busy = true) : step s = .refused .bringUpDuringOperation := by
  simp only [step, portStep, hp, if_pos hb]

/-- R9, R140: out of an operation the hook checks the parameters. -/
theorem step_of_bringUp_idle {s : State} {rest : List PortEvent} (hp : s.port = .bringUp :: rest)
    (hb : s.status.busy = false) :
    step s = if s.params.legal then .next (configureBus { s with port := rest }) else .refused .illegalParameters := by
  simp only [step, portStep, hp, hb, if_neg Bool.false_ne_true]

/-- Settles O16: the hook looks at `BUSY` first and then at the legality of the parameters. -/
theorem bringUpNeedsLegalParameters : Obligations.BringUpNeedsLegalParameters := by
  refine fun s rest hp => ⟨step_of_bringUp_busy hp, fun hb hl => ?_, fun hb hl => ?_⟩
  · rw [step_of_bringUp_idle hp hb, if_pos (Params.legal_iff.2 hl), configureBus]
  · rw [step_of_bringUp_idle hp hb, if_neg (mt Params.legal_iff.1 hl)]

/-! ### A placed command word -/

/-- R47, R68: a row that the decoder reads has at most 32 bits, and the word placed for it is the one decoded. -/
theorem decode_fetchWord {nbits w : Nat} {i : Instr} (h : decodeTableWord nbits w = some i) :
    decode (fetchWord nbits w) = .ok i := by
  unfold decodeTableWord tableWord at h
  split_ifs at h
  simp only at h
  split at h
  case h_1 j hj => exact hj.trans (congrArg _ (Option.some.inj h))
  case h_2 => cases h

/-- Settles O19: the placed write is first at the port of a ready framer, which accepts every instruction. -/
theorem placedWordIsRunByTheNextStep : Obligations.PlacedWordIsRunByTheNextStep := by
  intro s nbits w i h
  have hready : { s.withFetchWord nbits w with port := s.port }.ready := ⟨rfl, rfl⟩
  exact ⟨_, (step_of_command rfl).trans (writeCommand_of_decode (decode_fetchWord h) _), hready, rfl, rfl, rfl, rfl, rfl, rfl,
    _, exec_of_ready hready i⟩

end Sys2Proof.Machine
